-- ==== Sys2Proof/Word.lean ====
section
/-! DEFINITION. The word types of the SURT bridge core (10_state.md, 30_encoding.md R86, R96). -/

namespace Sys2Proof

/-- One byte: a wire byte, a frame-buffer cell, a result code, an index field (00_scope.md R11). -/
abbrev Byte := BitVec 8

/-- A 16-bit host command word (30_encoding.md R86). -/
abbrev CommandWord := BitVec 16

/-- A 64-bit binary64 axis word: bit 63 the sign, bits 62:52 the exponent, bits 51:0 the fraction
(20_memory.md R66). -/
abbrev AxisWord := BitVec 64

/-- An 80-bit input event record (30_encoding.md R96). -/
abbrev EventWord := BitVec 80

/-- A 4-bit hat code (00_scope.md R11). -/
abbrev HatCode := BitVec 4

end Sys2Proof
end

