-- ==== Sys2Proof/Syntax.lean ====
section
/-! DEFINITION. The instructions of the block: one constructor per row of opcode_table.json
(00_scope.md R2: host command words, input event records, wire frames). -/

namespace Sys2Proof

/-- The 16 payload bytes of a motor frame, offsets 1 to 16 in order (30_encoding.md R101). -/
structure MotorFrame where
  /-- offset 1: HALF of axis 1 -/
  leftY : Byte
  /-- offset 2: SYM of axis 0 -/
  axis0 : Byte
  /-- offset 3: SYM of the negated axis 4 -/
  axis4Inv : Byte
  /-- offset 4: SYM of axis 3 -/
  axis3 : Byte
  /-- offset 5: SYM of axis 2 -/
  axis2 : Byte
  /-- offsets 6 to 15: buttons 0 to 9 -/
  btnA : Byte
  btnB : Byte
  btnX : Byte
  btnY : Byte
  btnLB : Byte
  btnRB : Byte
  btnBack : Byte
  btnStart : Byte
  btnLStick : Byte
  btnRStick : Byte
  /-- offset 16: the reserved D-pad byte -/
  dpad : Byte
  deriving DecidableEq, Repr

/-- The instructions: 15 command words (30_encoding.md R87), 5 event types (R97), 2 frames (R100).
A field the spec calls ignored is kept as an operand, so that no bit of an encoding is dropped. -/
inductive Instr where
  | nop
  | start
  | quit
  | resetReq
  /-- the sequencer's own action; never legal from the host (R88) -/
  | tick
  | pollInbound
  | mapSym (index : Byte)
  | mapSymInv (index : Byte)
  | mapHalf (index : Byte)
  | sample
  | encode
  | encodeReset
  | send
  | openPort
  | closePort
  | axisMotion (index : Byte) (value : BitVec 64)
  | buttonDown (index : Byte) (value : BitVec 64)
  | buttonUp (index : Byte) (value : BitVec 64)
  | hatMotion (index : Byte) (value : BitVec 64)
  | deviceRemoved (index : Byte) (value : BitVec 64)
  | motorFrame (frame : MotorFrame)
  | resetFrame
  deriving DecidableEq, Repr

end Sys2Proof
end

