-- ==== Sys2Proof/WellFormed.lean ====
section
/-! DEFINITION. Which instructions the spec's encodings admit. Every operand of a command word and of
an event record may hold any bits (30_encoding.md R89, R98); a motor frame's payload has ranges (R101). -/

namespace Sys2Proof

/-- Offsets 1 to 5 of a motor frame, in order. -/
def MotorFrame.axisBytes (f : MotorFrame) : List Byte :=
  [f.leftY, f.axis0, f.axis4Inv, f.axis3, f.axis2]

/-- Offsets 6 to 15 of a motor frame, in order. -/
def MotorFrame.buttonBytes (f : MotorFrame) : List Byte :=
  [f.btnA, f.btnB, f.btnX, f.btnY, f.btnLB, f.btnRB, f.btnBack, f.btnStart, f.btnLStick, f.btnRStick]

/-- The ranges of 30_encoding.md R101: mapped axes 0..100, buttons 0 or 1, the D-pad byte 0. -/
def MotorFrame.wellFormed (f : MotorFrame) : Bool :=
  f.axisBytes.all (fun b => decide (b.toNat ≤ 100)) &&
  f.buttonBytes.all (fun b => decide (b.toNat ≤ 1)) &&
  decide (f.dpad = 0#8)

/-- The instructions the encodings of 30_encoding.md admit. -/
def Instr.wellFormed : Instr → Bool
  | .motorFrame f => f.wellFormed
  | .nop | .start | .quit | .resetReq | .tick | .pollInbound
  | .mapSym _ | .mapSymInv _ | .mapHalf _
  | .sample | .encode | .encodeReset | .send | .openPort | .closePort
  | .axisMotion _ _ | .buttonDown _ _ | .buttonUp _ _ | .hatMotion _ _ | .deviceRemoved _ _
  | .resetFrame => true

end Sys2Proof
end

