-- ==== Sys2Proof/Decode.lean ====
section
/-! DEFINITION. Decoding of the three encoded forms (30_encoding.md), total, every refusal named; then
the encoder written from the same tables, and the assembly text of R108. -/

namespace Sys2Proof

/-- The three encoded forms (30_encoding.md R85): a command word, an event record, a wire frame. -/
inductive Encoded where
  | command (w : CommandWord)
  | event (e : EventWord)
  | frame (bytes : List Byte)
  deriving DecidableEq, Repr

/-- Why bits are no instruction. -/
inductive DecodeError where
  /-- a reserved `OP` (30_encoding.md R88); a host word completes with IllegalCommand -/
  | reservedOpcode (op : Byte)
  /-- `OP = 0x04` from the host (R88); completes with IllegalCommand -/
  | tickFromHost
  /-- a nonzero `ARG` where it must be 0 (R89); completes with IllegalCommand -/
  | nonzeroArg (op arg : Byte)
  /-- an unassigned `ETYPE` (R97); the record is drained with no effect -/
  | unassignedEvent (etype : Byte)
  /-- a first byte other than 250 and 251 (R103), or no byte -/
  | unknownFrameHead
  /-- a frame of the wrong length for its first byte (R103) -/
  | frameLength
  /-- a motor frame whose payload is outside the ranges of R101 -/
  | payloadRange
  deriving DecidableEq, Repr

/-- `OP = w[15:8]` (30_encoding.md R86). -/
def opField (w : CommandWord) : Byte := w.extractLsb' 8 8

/-- `ARG = w[7:0]` (30_encoding.md R86). -/
def argField (w : CommandWord) : Byte := w.extractLsb' 0 8

/-- `ETYPE = e[79:72]` (30_encoding.md R96). -/
def etypeField (e : EventWord) : Byte := e.extractLsb' 72 8

/-- `INDEX = e[71:64]` (30_encoding.md R96). -/
def indexField (e : EventWord) : Byte := e.extractLsb' 64 8

/-- `VALUE = e[63:0]` (30_encoding.md R96). -/
def valueField (e : EventWord) : BitVec 64 := e.extractLsb' 0 64

/-- The commands whose `ARG` must be 0 (30_encoding.md R87, R89), TICK among them. -/
def plainCommand (op : Byte) : Option Instr :=
  match op.toNat with
  | 0x00 => some .nop
  | 0x01 => some .start
  | 0x02 => some .quit
  | 0x03 => some .resetReq
  | 0x04 => some .tick
  | 0x08 => some .pollInbound
  | 0x10 => some .sample
  | 0x11 => some .encode
  | 0x12 => some .encodeReset
  | 0x13 => some .send
  | 0x14 => some .openPort
  | 0x15 => some .closePort
  | _ => none

/-- The commands whose `ARG` is an axis index (30_encoding.md R87, R89). -/
def indexedCommand (op arg : Byte) : Option Instr :=
  match op.toNat with
  | 0x09 => some (.mapSym arg)
  | 0x0A => some (.mapSymInv arg)
  | 0x0B => some (.mapHalf arg)
  | _ => none

/-- A command word of opcode_table.json, the sequencer's TICK included (30_encoding.md R87). -/
def decodeCommand (w : CommandWord) : Except DecodeError Instr :=
  match indexedCommand (opField w) (argField w) with
  | some i => .ok i
  | none =>
    match plainCommand (opField w) with
    | none => .error (.reservedOpcode (opField w))
    | some i => if argField w = 0#8 then .ok i else .error (.nonzeroArg (opField w) (argField w))

/-- A word of the host: `OP = 0x04` is refused, whatever its `ARG` (30_encoding.md R88, R90). -/
def decodeHostWord (w : CommandWord) : Except DecodeError Instr :=
  if opField w = 0x04#8 then .error .tickFromHost else decodeCommand w

/-- An event record (30_encoding.md R97). -/
def decodeEvent (e : EventWord) : Except DecodeError Instr :=
  match (etypeField e).toNat with
  | 0x01 => .ok (.axisMotion (indexField e) (valueField e))
  | 0x02 => .ok (.buttonDown (indexField e) (valueField e))
  | 0x03 => .ok (.buttonUp (indexField e) (valueField e))
  | 0x04 => .ok (.hatMotion (indexField e) (valueField e))
  | 0x05 => .ok (.deviceRemoved (indexField e) (valueField e))
  | _ => .error (.unassignedEvent (etypeField e))

/-- The length a frame's first byte announces (30_encoding.md R103). -/
def frameLength (head : Byte) : Option Nat :=
  if head = 250#8 then some 17 else if head = 251#8 then some 1 else none

/-- The 16 payload bytes of a motor frame, offsets 1 to 16 (30_encoding.md R101). -/
def motorPayload : List Byte → Option MotorFrame
  | [leftY, axis0, axis4Inv, axis3, axis2, btnA, btnB, btnX, btnY, btnLB, btnRB, btnBack, btnStart,
      btnLStick, btnRStick, dpad] =>
    some { leftY, axis0, axis4Inv, axis3, axis2, btnA, btnB, btnX, btnY, btnLB, btnRB, btnBack,
           btnStart, btnLStick, btnRStick, dpad }
  | _ => none

/-- A wire frame (30_encoding.md R100 to R103). -/
def decodeFrame : List Byte → Except DecodeError Instr
  | [] => .error .unknownFrameHead
  | head :: payload =>
    if head = 250#8 then
      match motorPayload payload with
      | none => .error .frameLength
      | some f => if f.wellFormed then .ok (.motorFrame f) else .error .payloadRange
    else if head = 251#8 then
      if payload = [] then .ok .resetFrame else .error .frameLength
    else .error .unknownFrameHead

/-- The instruction an encoded form stands for. -/
def decode : Encoded → Except DecodeError Instr
  | .command w => decodeCommand w
  | .event e => decodeEvent e
  | .frame bytes => decodeFrame bytes

/-- A command word from its two fields (30_encoding.md R86). -/
def commandOf (op arg : Byte) : CommandWord := op ++ arg

/-- An event record from its three fields (30_encoding.md R96). -/
def eventOf (etype index : Byte) (value : BitVec 64) : EventWord := etype ++ index ++ value

/-- The payload of a motor frame in offset order (30_encoding.md R101). -/
def MotorFrame.payload (f : MotorFrame) : List Byte :=
  f.axisBytes ++ f.buttonBytes ++ [f.dpad]

/-- The encoder: the bits of an instruction (30_encoding.md R87, R97, R101, R102). -/
def encode : Instr → Encoded
  | .nop => .command (commandOf 0x00#8 0#8)
  | .start => .command (commandOf 0x01#8 0#8)
  | .quit => .command (commandOf 0x02#8 0#8)
  | .resetReq => .command (commandOf 0x03#8 0#8)
  | .tick => .command (commandOf 0x04#8 0#8)
  | .pollInbound => .command (commandOf 0x08#8 0#8)
  | .mapSym i => .command (commandOf 0x09#8 i)
  | .mapSymInv i => .command (commandOf 0x0A#8 i)
  | .mapHalf i => .command (commandOf 0x0B#8 i)
  | .sample => .command (commandOf 0x10#8 0#8)
  | .encode => .command (commandOf 0x11#8 0#8)
  | .encodeReset => .command (commandOf 0x12#8 0#8)
  | .send => .command (commandOf 0x13#8 0#8)
  | .openPort => .command (commandOf 0x14#8 0#8)
  | .closePort => .command (commandOf 0x15#8 0#8)
  | .axisMotion i v => .event (eventOf 0x01#8 i v)
  | .buttonDown i v => .event (eventOf 0x02#8 i v)
  | .buttonUp i v => .event (eventOf 0x03#8 i v)
  | .hatMotion i v => .event (eventOf 0x04#8 i v)
  | .deviceRemoved i v => .event (eventOf 0x05#8 i v)
  | .motorFrame f => .frame (250#8 :: f.payload)
  | .resetFrame => .frame [251#8]

/-- The first `n` bytes of `w`, least significant byte first: the layout opcode_table.json numbers
the bytes of a frame by. -/
def bytesOf (n w : Nat) : List Byte :=
  (List.range n).map (fun k => BitVec.ofNat 8 (w >>> (8 * k)))

/-- The bytes of the frame whose first byte is the least significant byte of `w`, as many as that
byte announces (30_encoding.md R103); bytes above the bits of `w` are 0. -/
def frameBytesOf (w : Nat) : List Byte :=
  match frameLength (BitVec.ofNat 8 w) with
  | some n => bytesOf n w
  | none => bytesOf 1 w

/-- A row of opcode_table.json laid out as the block holds it: 16 bits are a command word, 80 bits an
event record, anything else a frame whose first byte the row gives. -/
def tableEncoded (nbits w : Nat) : Encoded :=
  if nbits = 16 then .command (BitVec.ofNat 16 w)
  else if nbits = 80 then .event (BitVec.ofNat 80 w)
  else .frame (frameBytesOf (w % 2 ^ nbits))

/-- The instruction the decoder reads from a row of opcode_table.json. -/
def decodeTableWord (nbits w : Nat) : Option Instr :=
  match decode (tableEncoded nbits w) with
  | .ok i => some i
  | .error _ => none

/-- The mnemonic of an instruction (30_encoding.md R87, R97, R100). -/
def Instr.mnemonic : Instr → String
  | .nop => "NOP"
  | .start => "START"
  | .quit => "QUIT"
  | .resetReq => "RESET_REQ"
  | .tick => "TICK"
  | .pollInbound => "POLL_INBOUND"
  | .mapSym _ => "MAP_SYM"
  | .mapSymInv _ => "MAP_SYM_INV"
  | .mapHalf _ => "MAP_HALF"
  | .sample => "SAMPLE"
  | .encode => "ENCODE"
  | .encodeReset => "ENCODE_RESET"
  | .send => "SEND"
  | .openPort => "OPEN"
  | .closePort => "CLOSE"
  | .axisMotion _ _ => "AXIS_MOTION"
  | .buttonDown _ _ => "BUTTON_DOWN"
  | .buttonUp _ _ => "BUTTON_UP"
  | .hatMotion _ _ => "HAT_MOTION"
  | .deviceRemoved _ _ => "DEVICE_REMOVED"
  | .motorFrame _ => "MOTOR_FRAME"
  | .resetFrame => "RESET_FRAME"

/-- A natural number as `0x` and `digits` hexadecimal digits. -/
def hexText (digits n : Nat) : String :=
  let ds := (Nat.toDigits 16 n).map Char.toUpper
  "0x" ++ String.ofList (List.replicate (digits - ds.length) '0' ++ ds)

/-- A bracketed list of decimal bytes in offset order (30_encoding.md R108(d)). -/
def frameText (bytes : List Byte) : String :=
  "[" ++ String.intercalate "," (bytes.map (fun b => toString b.toNat)) ++ "]"

/-- The assembly text of an instruction (30_encoding.md R108): a command by its mnemonic, a MAP command
with its decimal index, an event as `ev`, its mnemonic, its index and the value its type reads, a frame as
its bytes, and the arbitration's choice of a TICK as `tick`. -/
def Instr.assembly (i : Instr) : String :=
  match i with
  | .tick => "tick"
  | .nop | .start | .quit | .resetReq | .pollInbound | .sample | .encode | .encodeReset | .send
  | .openPort | .closePort => i.mnemonic
  | .mapSym a | .mapSymInv a | .mapHalf a => i.mnemonic ++ " " ++ toString a.toNat
  | .axisMotion a v => "ev " ++ i.mnemonic ++ " " ++ toString a.toNat ++ ", " ++ hexText 16 v.toNat
  | .hatMotion a v => "ev " ++ i.mnemonic ++ " " ++ toString a.toNat ++ ", " ++ toString v.toNat
  | .buttonDown a _ | .buttonUp a _ | .deviceRemoved a _ =>
    "ev " ++ i.mnemonic ++ " " ++ toString a.toNat
  | .motorFrame f => frameText (250#8 :: f.payload)
  | .resetFrame => frameText [251#8]

end Sys2Proof
end

