-- ==== Sys2Proof/Config.lean ====
section
/-! DEFINITION. The parameters an implementation fixes (00_scope.md R10) and the free values: the two
oracles (R9), the payload of a NaN (R15) and a number too wide for its register, to which no rule gives a
value. -/

namespace Sys2Proof

/-- The serial device identifier `P_DEV_ID`: an opaque name, handed to the open oracle only
(00_scope.md R10; 10_state.md R40). -/
abbrev DevId := List Byte

/-- `P_DEVICE_AT_RESET`: the controller enumerated at reset (00_scope.md R10). -/
inductive DeviceAtReset where
  /-- no controller -/
  | absent
  /-- a controller with `na` axes, `nb` buttons and `nh` hats -/
  | present (na nb nh : Nat)
  deriving DecidableEq, Repr

/-- `P_ROUND_TIE`: the tie rule of the round-to-integer step (00_scope.md R10, R16). -/
inductive RoundTie where
  | halfEven
  | halfAway
  deriving DecidableEq, Repr

/-- The thirteen parameters of 00_scope.md R10, fixed at reset and never changed by a step. -/
structure Params where
  baud : Nat
  wtoMs : Nat
  periodMs : Nat
  devId : DevId
  deviceAtReset : DeviceAtReset
  maxAx : Nat
  maxBtn : Nat
  maxHat : Nat
  evqCap : Nat
  rxCap : Nat
  hcqCap : Nat
  tickPendMax : Nat
  roundTie : RoundTie
  deriving DecidableEq, Repr

/-- The legal values of the parameters (00_scope.md R10, column "legal values"). -/
abbrev Params.Legal (p : Params) : Prop :=
  1 ≤ p.baud ∧ 1 ≤ p.wtoMs ∧ 1 ≤ p.periodMs ∧
  (5 ≤ p.maxAx ∧ p.maxAx ≤ 64) ∧ (10 ≤ p.maxBtn ∧ p.maxBtn ≤ 64) ∧ p.maxHat ≤ 64 ∧
  1 ≤ p.evqCap ∧ 1 ≤ p.rxCap ∧ 1 ≤ p.hcqCap ∧ (1 ≤ p.tickPendMax ∧ p.tickPendMax ≤ 65535)

/-- The defaults of 00_scope.md R10. `P_DEV_ID` and `P_DEVICE_AT_RESET` have no default there:
DESIGN CHOICE, unsafe, log entry 1 (the device of program P1 of 95_test_vectors.md). -/
def Params.default : Params where
  baud := 38400
  wtoMs := 100
  periodMs := 50
  devId := []
  deviceAtReset := .present 6 11 1
  maxAx := 8
  maxBtn := 16
  maxHat := 4
  evqCap := 64
  rxCap := 256
  hcqCap := 16
  tickPendMax := 65535
  roundTie := .halfEven

/-- An answer of the open oracle (00_scope.md R9; 44_serial_transmitter.md R187). -/
inductive OpenAnswer where
  | ok
  | portUnavailable
  | permissionDenied
  deriving DecidableEq, Repr, Inhabited

/-- FREE VALUE: the answer of `O_OPEN(P_DEV_ID)` at the `draw`-th draw (00_scope.md R9, log entry 4). -/
opaque Config.openOracle (dev : DevId) (draw : Nat) : OpenAnswer

/-- FREE VALUE: the answer of `O_TX(n)` at the `draw`-th draw, somewhere in 0..n
(00_scope.md R9, log entry 4). -/
opaque Config.txOracle (n draw : Nat) : Fin (n + 1)

/-- FREE VALUE: the `w` bits of the register at `addr` for a natural number `n` that they cannot hold: a
parameter wider than its register (10_state.md R40, log entry 2), a queue length of 2^64 or more
(20_memory.md R62, log entry 15). -/
opaque Config.overwide (w : Nat) (addr : Byte) (n : Nat) : BitVec w

/-- FREE VALUE: the low 51 fraction bits of the quiet NaN an operation on `a` and `b` returns
(00_scope.md R15 gives no payload, log entry 6). -/
opaque Config.nanPayload (a b : AxisWord) : BitVec 51

end Sys2Proof
end

