-- ==== Sys2Proof/Machine/Width.lean ====
section
/-! DEFINITION. A natural number of the spec held or read at a fixed register width. -/

namespace Sys2Proof.Machine

/-- The natural number `n` at the `w` bits of the register at `addr`. Where `n` does not fit, no rule gives
the bits and they are a FREE VALUE (DESIGN CHOICE: log entry 2 for 0x10 to 0x12, log entry 15 for 0x0D to
0x0F). -/
def atWidth (w : Nat) (addr : Byte) (n : Nat) : BitVec w :=
  if n < 2 ^ w then BitVec.ofNat w n else Config.overwide w addr n

end Sys2Proof.Machine
end

