-- ==== Sys2Proof/Machine/State.lean ====
section
/-! DEFINITION. The state of the SURT bridge core (10_state.md) and its reset (70_reset_and_hazards.md
R275). Plain data only. Fields of the model's own stand last and say so. -/

namespace Sys2Proof.Machine

/-- Why a step stops with a fault. -/
inductive Fault where
  /-- The register `LOOP` holds 3, which is never held (10_state.md R22) and which 93_implementation_defined.md
  item 21 treats as `fault`. Raised by every host command that reads `LOOP` for its legality. Safe: no step
  reaches such a state. -/
  | loopReserved
  deriving DecidableEq, Repr

/-- Why a step refuses an instruction. -/
inductive Refusal where
  /-- An instruction with no meaning yet, by its mnemonic. Raised by a refused arm of exec only; safe. -/
  | notModelled (mnemonic : String)
  deriving DecidableEq, Repr

/-- The result codes (60_exceptions.md R245). -/
inductive ResultCode where
  | ok
  | deviceNotFound
  | deviceDisconnected
  | portUnavailable
  | permissionDenied
  | writeTimeout
  | unsupportedDevice
  | nullSnapshot
  | noFrame
  | notOpen
  | badState
  | illegalCommand
  | badIndex
  deriving DecidableEq, Repr

/-- A record of the `LOG` stream (60_exceptions.md R251). -/
structure LogRecord where
  code : Byte
  op : Byte
  deriving DecidableEq, Repr

/-- The snapshot part of a display record (42_snapshot.md R157). -/
structure SnapshotView where
  nax : Byte
  nbtn : Byte
  nhat : Byte
  ax : List AxisWord
  btn : List Bool
  hat : List HatCode
  deriving DecidableEq, Repr

/-- A record of the `DISP` stream (42_snapshot.md R157). -/
inductive DisplayRecord where
  | fresh (view : SnapshotView)
  | stale (view : SnapshotView)
  | none
  deriving DecidableEq, Repr

/-- One step of one agent (00_scope.md R8). -/
inductive AgentStep where
  /-- SEQ runs one action (45_sequencer.md R216) -/
  | seq
  /-- TIMER: a tick comes due (R237) -/
  | timer
  /-- DEVICE produces an event record (42_snapshot.md R141) -/
  | device (e : EventWord)
  /-- HOST enqueues a command word (45_sequencer.md R215) -/
  | enqueue (w : CommandWord)
  /-- HOST reads a register (20_memory.md R61) -/
  | read (addr : Byte)
  /-- LINE delivers an inbound byte (44_serial_transmitter.md R206) -/
  | line (b : Byte)
  deriving DecidableEq, Repr

/-- A register read the host made and the value it got (20_memory.md R61). -/
structure ReadRecord where
  addr : Byte
  value : BitVec 64
  deriving DecidableEq, Repr

/-- Everything the spec gives the machine (10_state.md R22 to R44), then the model's own fields. A bit
is a `Bool` (`true` = 1); `PORT` is `true` when OPEN; `ROUND_TIE` is `true` for HALF_AWAY. -/
structure State where
  /-- the parameters of 00_scope.md R10, constant -/
  params : Params
  /-- `LOOP` (R22): 0 IDLE, 1 TICKING, 2 SHUTDOWN -/
  loop : BitVec 2
  /-- `TICK_PEND` (R23) -/
  tickPend : BitVec 16
  /-- `HCQ` (R24) -/
  hcq : List CommandWord
  /-- `RESULT` (R25) -/
  result : Byte
  /-- `FATAL_CODE` (R26) -/
  fatalCode : Byte
  /-- `DEV_FOUND` (R27) -/
  devFound : Bool
  /-- `DEV_PRESENT` (R27) -/
  devPresent : Bool
  /-- `DEV_LOST` (R27) -/
  devLost : Bool
  /-- `NAX` (R27) -/
  nax : Byte
  /-- `NBTN` (R27) -/
  nbtn : Byte
  /-- `NHAT` (R27) -/
  nhat : Byte
  /-- `LIVE_AX` (R28) -/
  liveAx : List AxisWord
  /-- `LIVE_BTN` (R28) -/
  liveBtn : List Bool
  /-- `LIVE_HAT` (R28) -/
  liveHat : List HatCode
  /-- `EVQ` (R29) -/
  evq : List EventWord
  /-- `SNAP_VALID` (R30) -/
  snapValid : Bool
  /-- `SNAP_EVER` (R30) -/
  snapEver : Bool
  /-- `SNAP_AX` (R31) -/
  snapAx : List AxisWord
  /-- `SNAP_BTN` (R31) -/
  snapBtn : List Bool
  /-- `SNAP_HAT` (R31) -/
  snapHat : List HatCode
  /-- `AXOUT` (R32) -/
  axout : Byte
  /-- `FLEN` (R34) -/
  flen : BitVec 5
  /-- `FBUF` (R35) -/
  fbuf : Vector Byte 17
  /-- `PORT` (R36) -/
  port : Bool
  /-- `TX_RESULT` (R37) -/
  txResult : Byte
  /-- `RXQ` (R38) -/
  rxq : List Byte
  /-- `BAUD` (R40) -/
  baud : BitVec 32
  /-- `WTO_MS` (R40) -/
  wtoMs : BitVec 16
  /-- `PERIOD_MS` (R40) -/
  periodMs : BitVec 16
  /-- `ROUND_TIE` (R40) -/
  roundTie : Bool
  /-- `WIRE` (R41), oldest byte first -/
  wire : List Byte
  /-- `DISP` (R41) -/
  disp : List DisplayRecord
  /-- `LOG` (R41) -/
  log : List LogRecord
  /-- `INB` (R41) -/
  inb : List (List Byte)
  /-- `DEV_ATTACHED` (R44), the environment's -/
  devAttached : Bool
  /-- the model's own: the agent steps that come next (log entry 3) -/
  agenda : List AgentStep
  /-- the model's own: open-oracle answers already fixed (log entry 4) -/
  openScript : List OpenAnswer
  /-- the model's own: how many open answers have been drawn (log entry 4) -/
  openDraws : Nat
  /-- the model's own: transmit-oracle answers already fixed (log entry 4) -/
  txScript : List Nat
  /-- the model's own: how many transmit answers have been drawn (log entry 4) -/
  txDraws : Nat
  /-- the model's own: the register reads the host has made (log entry 5) -/
  reads : List ReadRecord
  deriving DecidableEq, Repr

/-- The axis, button and hat counts of a device, none for an absent one (10_state.md R27). -/
def deviceCounts : DeviceAtReset → Nat × Nat × Nat
  | .absent => (0, 0, 0)
  | .present na nb nh => (na, nb, nh)

/-- `DEV_FOUND` at reset (10_state.md R27). -/
def deviceFound : DeviceAtReset → Bool
  | .absent => false
  | .present _ _ _ => true

/-- The machine right after reset with parameters `p` (70_reset_and_hazards.md R275). -/
def State.resetWith (p : Params) : State where
  params := p
  loop := 0#2
  tickPend := 0#16
  hcq := []
  result := 0x00#8
  fatalCode := 0x00#8
  devFound := deviceFound p.deviceAtReset
  devPresent := deviceFound p.deviceAtReset
  devLost := false
  nax := BitVec.ofNat 8 (min (deviceCounts p.deviceAtReset).1 p.maxAx)
  nbtn := BitVec.ofNat 8 (min (deviceCounts p.deviceAtReset).2.1 p.maxBtn)
  nhat := BitVec.ofNat 8 (min (deviceCounts p.deviceAtReset).2.2 p.maxHat)
  liveAx := List.replicate p.maxAx 0#64
  liveBtn := List.replicate p.maxBtn false
  liveHat := List.replicate p.maxHat 0#4
  evq := []
  snapValid := false
  snapEver := false
  snapAx := List.replicate p.maxAx 0#64
  snapBtn := List.replicate p.maxBtn false
  snapHat := List.replicate p.maxHat 0#4
  axout := 0x00#8
  flen := 0#5
  fbuf := Vector.replicate 17 0x00#8
  port := false
  txResult := 0x00#8
  rxq := []
  baud := atWidth 32 0x10#8 p.baud
  wtoMs := atWidth 16 0x11#8 p.wtoMs
  periodMs := atWidth 16 0x12#8 p.periodMs
  roundTie := match p.roundTie with | .halfEven => false | .halfAway => true
  wire := []
  disp := []
  log := []
  inb := []
  devAttached := deviceFound p.deviceAtReset
  agenda := []
  openScript := []
  openDraws := 0
  txScript := []
  txDraws := 0
  reads := []

/-- The machine right after reset, every parameter at its default (00_scope.md R10, log entry 1). -/
def State.reset : State := State.resetWith Params.default

end Sys2Proof.Machine
end

