-- ==== Sys2Proof/Machine/Flags.lean ====
section
/-! DEFINITION. Codes and status words: the result codes and which are logged (60_exceptions.md R245,
R250), the loop states and where a command is legal (30_encoding.md R87), the opcode bytes, and the two
packed status registers (20_memory.md R62). The block has no arithmetic flags (10_state.md R42). -/

namespace Sys2Proof.Machine

/-- The 8-bit number of a result code (60_exceptions.md R245). -/
def codeByte : ResultCode → Byte
  | .ok => 0x00#8
  | .deviceNotFound => 0x01#8
  | .deviceDisconnected => 0x02#8
  | .portUnavailable => 0x03#8
  | .permissionDenied => 0x04#8
  | .writeTimeout => 0x05#8
  | .unsupportedDevice => 0x06#8
  | .nullSnapshot => 0x10#8
  | .noFrame => 0x11#8
  | .notOpen => 0x12#8
  | .badState => 0x13#8
  | .illegalCommand => 0x14#8
  | .badIndex => 0x15#8

/-- The logged codes (60_exceptions.md R250). -/
def isLogged : ResultCode → Bool
  | .ok => false
  | .nullSnapshot => false
  | .noFrame => false
  | .deviceNotFound => true
  | .deviceDisconnected => true
  | .portUnavailable => true
  | .permissionDenied => true
  | .writeTimeout => true
  | .unsupportedDevice => true
  | .notOpen => true
  | .badState => true
  | .illegalCommand => true
  | .badIndex => true

/-- `LOOP = IDLE` (10_state.md R22). -/
def loopIdle : BitVec 2 := 0#2
/-- `LOOP = TICKING` (R22). -/
def loopTicking : BitVec 2 := 1#2
/-- `LOOP = SHUTDOWN` (R22). -/
def loopShutdown : BitVec 2 := 2#2
/-- The encoding of `LOOP` that is never held (R22). -/
def loopNeverHeld : BitVec 2 := 3#2

/-- Legal in IDLE, TICKING and SHUTDOWN (30_encoding.md R87). -/
def legalAlways (l : BitVec 2) : Bool := l == loopIdle || l == loopTicking || l == loopShutdown
/-- Legal in IDLE only (R87). -/
def legalIdle (l : BitVec 2) : Bool := l == loopIdle
/-- Legal in TICKING only (R87). -/
def legalTicking (l : BitVec 2) : Bool := l == loopTicking

/-! The opcode bytes a LOG record carries (30_encoding.md R87; 60_exceptions.md R251). -/

def opNop : Byte := 0x00#8
def opStart : Byte := 0x01#8
def opQuit : Byte := 0x02#8
def opResetReq : Byte := 0x03#8
def opTick : Byte := 0x04#8
def opPollInbound : Byte := 0x08#8
def opMapSym : Byte := 0x09#8
def opMapSymInv : Byte := 0x0A#8
def opMapHalf : Byte := 0x0B#8
def opSample : Byte := 0x10#8
def opEncode : Byte := 0x11#8
def opEncodeReset : Byte := 0x12#8
def opSend : Byte := 0x13#8
def opOpen : Byte := 0x14#8
def opClose : Byte := 0x15#8

/-- A status bit as a bit of a register. -/
def bit (b : Bool) : BitVec 64 := if b then 1#64 else 0#64

/-- The device status register at address 0x02 (20_memory.md R62): bit 0 `DEV_PRESENT`, bit 1
`DEV_LOST`, bit 2 `DEV_FOUND`. -/
def deviceStatus (s : State) : BitVec 64 :=
  bit s.devPresent ||| (bit s.devLost <<< 1) ||| (bit s.devFound <<< 2)

/-- The snapshot status register at address 0x06 (R62): bit 0 `SNAP_VALID`, bit 1 `SNAP_EVER`. -/
def snapshotStatus (s : State) : BitVec 64 :=
  bit s.snapValid ||| (bit s.snapEver <<< 1)

end Sys2Proof.Machine
end

