-- ==== Sys2Proof/Machine/Binary64.lean ====
section
/-! DEFINITION. The binary64 primitives (00_scope.md R15) and the integer helpers (R16).
A finite word denotes an integer number of units of 2^-1074; every operation computes exactly on
those integers and rounds once. -/

namespace Sys2Proof.Machine

/-- The integers with both infinities: what `value(a)` of R15 (in units of 2^-1074) and `roundInt` of
R16 range over. -/
inductive ExtInt where
  | negInf
  | fin (n : Int)
  | posInf
  deriving DecidableEq, Repr

/-- The order of the extended integers. -/
def extLe : ExtInt → ExtInt → Bool
  | .negInf, _ => true
  | _, .posInf => true
  | .fin m, .fin n => decide (m ≤ n)
  | .posInf, .negInf => false
  | .posInf, .fin _ => false
  | .fin _, .negInf => false

/-- The sign bit, bit 63 (20_memory.md R66). -/
def fSign (a : AxisWord) : Bool := a.msb

/-- The exponent field, bits 62:52 (R66). -/
def fExponent (a : AxisWord) : Nat := (a.extractLsb' 52 11).toNat

/-- The fraction field, bits 51:0 (R66). -/
def fFraction (a : AxisWord) : Nat := (a.extractLsb' 0 52).toNat

/-- `isNaN(a)` (R15). -/
def isNaN64 (a : AxisWord) : Bool := decide (fExponent a = 0x7FF) && decide (fFraction a ≠ 0)

/-- `a` is an infinity. -/
def isInf64 (a : AxisWord) : Bool := decide (fExponent a = 0x7FF) && decide (fFraction a = 0)

/-- The magnitude of a finite word in units of 2^-1074, subnormals included. -/
def fMagnitude (a : AxisWord) : Nat :=
  if fExponent a = 0 then fFraction a else (2 ^ 52 + fFraction a) * 2 ^ (fExponent a - 1)

/-- The value of a finite word in units of 2^-1074. -/
def fUnits (a : AxisWord) : Int :=
  if fSign a then -(fMagnitude a : Int) else (fMagnitude a : Int)

/-- `value(a)` for a word that is no NaN (R15), in units of 2^-1074. -/
def value64 (a : AxisWord) : ExtInt :=
  if isInf64 a then (if fSign a then .negInf else .posInf) else .fin (fUnits a)

/-- `a <= b`, the IEEE ordered comparison (R15): false when either is a NaN, and the two zeros equal. -/
def fle64 (a b : AxisWord) : Bool :=
  !isNaN64 a && !isNaN64 b && extLe (value64 a) (value64 b)

/-- The word with the given sign and the given low 63 bits. -/
def fPack (neg : Bool) (bits : Nat) : AxisWord :=
  BitVec.ofNat 64 (bits + if neg then 2 ^ 63 else 0)

/-- The low 63 bits of an infinity. -/
def infBits : Nat := 0x7FF * 2 ^ 52

/-- The quotient of `num / den` rounded to the nearest integer, ties to even (R15). -/
def divHalfEven (num den : Nat) : Nat :=
  let q := num / den
  let r := num % den
  if 2 * r < den then q
  else if den < 2 * r then q + 1
  else if q % 2 = 0 then q else q + 1

/-- The low 63 bits of the binary64 word nearest to `num / den` units of 2^-1074, roundTiesToEven
(R15): the quotient is rounded once to the spacing of its binade, then packed, and a result past the
largest finite word is the infinity. A carry out of the fraction adds one to the exponent field. -/
def roundMag (num den : Nat) : Nat :=
  let shift := Nat.log2 (num / den) - 52
  min (shift * 2 ^ 52 + divHalfEven num (den * 2 ^ shift)) infBits

/-- The NaN an operation returns: quiet, its payload a FREE VALUE (R15 gives none, log entry 6). -/
def nanWord (a b : AxisWord) : AxisWord :=
  fPack false (infBits + 2 ^ 51 + (Config.nanPayload a b).toNat)

/-- `fneg64(a)`: flips bit 63 (R15). -/
def fneg64 (a : AxisWord) : AxisWord := a ^^^ 0x8000000000000000#64

/-- `fsub64(a, b)` (R15): binary64 subtraction, roundTiesToEven. -/
def fsub64 (a b : AxisWord) : AxisWord :=
  if isNaN64 a || isNaN64 b then nanWord a b
  else if isInf64 a then (if isInf64 b && (fSign a == fSign b) then nanWord a b else a)
  else if isInf64 b then fneg64 b
  else
    let d := fUnits a - fUnits b
    if d = 0 then fPack (fSign a && !fSign b) 0
    else fPack (decide (d < 0)) (roundMag d.natAbs 1)

/-- `fmul64(a, b)` (R15): binary64 multiplication, roundTiesToEven. -/
def fmul64 (a b : AxisWord) : AxisWord :=
  if isNaN64 a || isNaN64 b then nanWord a b
  else
    let neg := fSign a != fSign b
    if isInf64 a then (if !isInf64 b && decide (fMagnitude b = 0) then nanWord a b else fPack neg infBits)
    else if isInf64 b then (if fMagnitude a = 0 then nanWord a b else fPack neg infBits)
    else fPack neg (roundMag (fMagnitude a * fMagnitude b) (2 ^ 1074))

/-- `fdiv64(a, b)` (R15): binary64 division, roundTiesToEven. -/
def fdiv64 (a b : AxisWord) : AxisWord :=
  if isNaN64 a || isNaN64 b then nanWord a b
  else
    let neg := fSign a != fSign b
    if isInf64 a then (if isInf64 b then nanWord a b else fPack neg infBits)
    else if isInf64 b then fPack neg 0
    else if fMagnitude b = 0 then (if fMagnitude a = 0 then nanWord a b else fPack neg infBits)
    else fPack neg (roundMag (fMagnitude a * 2 ^ 1074) (fMagnitude b))

/-- `num / den` rounded to the nearest integer under a tie rule (R16); `away` is `ROUND_TIE`:
`false` HALF_EVEN, `true` HALF_AWAY. -/
def divNearest (away : Bool) (num den : Nat) : Nat :=
  let q := num / den
  let r := num % den
  if 2 * r < den then q
  else if den < 2 * r then q + 1
  else if !away && decide (q % 2 = 0) then q else q + 1

/-- `roundInt(x)` for a word that is no NaN (R16). Both tie rules are symmetric in the sign. -/
def roundInt (away : Bool) (x : AxisWord) : ExtInt :=
  match value64 x with
  | .negInf => .negInf
  | .posInf => .posInf
  | .fin u =>
    let n := divNearest away u.natAbs (2 ^ 1074)
    .fin (if u < 0 then -(n : Int) else (n : Int))

/-- `clamp(n, lo, hi)` (R16), defined for the infinities too. -/
def clampExt (n : ExtInt) (lo hi : Nat) : Nat :=
  match n with
  | .negInf => lo
  | .posInf => hi
  | .fin k => if k < (lo : Int) then lo else if (hi : Int) < k then hi else k.toNat

/-- The binary64 words R15 names. -/
def fOne : AxisWord := 0x3FF0000000000000#64
def fTwo : AxisWord := 0x4000000000000000#64
def fHundred : AxisWord := 0x4059000000000000#64
def fZero : AxisWord := 0x0000000000000000#64

/-- The binary64 word nearest to the rational `±num / den`, roundTiesToEven: what a decimal literal
denotes (30_encoding.md R108(b)). -/
def ofRatio64 (neg : Bool) (num den : Nat) : AxisWord :=
  fPack neg (roundMag (num * 2 ^ 1074) den)

end Sys2Proof.Machine
end

