-- ==== Sys2Proof/Machine/Mapping.lean ====
section
/-! DEFINITION. The three conversion functions of the axis mapper (41_axis_mapper.md R115 to R120).
`away` is the register `ROUND_TIE`. -/

namespace Sys2Proof.Machine

/-- The word `t4` of `SYM(v)` (41_axis_mapper.md R116): each operation rounds once. -/
def symScaled (v : AxisWord) : AxisWord :=
  let t1 := fsub64 fOne v
  let t2 := fsub64 fTwo t1
  let t3 := fmul64 t2 fHundred
  fdiv64 t3 fTwo

/-- `SYM(v)`, symmetric-to-percentage (R116). -/
def sym (away : Bool) (v : AxisWord) : Nat :=
  if isNaN64 v then 50 else clampExt (roundInt away (symScaled v)) 0 100

/-- `SYM_INV(v)`: negate, then map (R118). -/
def symInv (away : Bool) (v : AxisWord) : Nat := sym away (fneg64 v)

/-- `HALF(v)`, half-range clamp-to-percentage (R120). -/
def half (away : Bool) (v : AxisWord) : Nat :=
  if isNaN64 v then 0
  else
    let r := fneg64 v
    if fle64 r fZero then 0
    else clampExt (roundInt away (fmul64 r fHundred)) 0 100

end Sys2Proof.Machine
end

