-- ==== Sys2Proof/Machine/Operands.lean ====
section
/-! DEFINITION. Operand forms: the snapshot registers as operands (41_axis_mapper.md R126), the fixed
field multiplexer from the snapshot to the motor frame (42_snapshot.md R158; 43_frame_packer.md R170),
the display multiplexer (42_snapshot.md R157) and the frame an instruction lays into the buffer. -/

namespace Sys2Proof.Machine

/-- `SNAP_AX[i]`. -/
def snapAxis (s : State) (i : Nat) : AxisWord := s.snapAx.getD i 0#64

/-- `zext_8(SNAP_BTN[b])` (43_frame_packer.md R170). -/
def snapButtonByte (s : State) (b : Nat) : Byte := if s.snapBtn.getD b false then 1#8 else 0#8

/-- The result of a conversion function as a byte: it is in 0..100 (41_axis_mapper.md R122). -/
def percentByte (n : Nat) : Byte := BitVec.ofNat 8 n

/-- The motor frame ENCODE assembles from the snapshot (43_frame_packer.md R170; the axis and button
choice is 42_snapshot.md R158). -/
def frameOfSnapshot (s : State) : MotorFrame where
  leftY := percentByte (half s.roundTie (snapAxis s 1))
  axis0 := percentByte (sym s.roundTie (snapAxis s 0))
  axis4Inv := percentByte (symInv s.roundTie (snapAxis s 4))
  axis3 := percentByte (sym s.roundTie (snapAxis s 3))
  axis2 := percentByte (sym s.roundTie (snapAxis s 2))
  btnA := snapButtonByte s 0
  btnB := snapButtonByte s 1
  btnX := snapButtonByte s 2
  btnY := snapButtonByte s 3
  btnLB := snapButtonByte s 4
  btnRB := snapButtonByte s 5
  btnBack := snapButtonByte s 6
  btnStart := snapButtonByte s 7
  btnLStick := snapButtonByte s 8
  btnRStick := snapButtonByte s 9
  dpad := 0#8

/-- The 17 cells of the frame buffer that hold a motor frame (30_encoding.md R101). -/
def motorCells (f : MotorFrame) : Vector Byte 17 :=
  #v[250#8, f.leftY, f.axis0, f.axis4Inv, f.axis3, f.axis2,
     f.btnA, f.btnB, f.btnX, f.btnY, f.btnLB, f.btnRB, f.btnBack, f.btnStart, f.btnLStick, f.btnRStick,
     f.dpad]

/-- The snapshot a display record carries: the counts and the elements below them
(42_snapshot.md R157). -/
def snapshotView (s : State) : SnapshotView where
  nax := s.nax
  nbtn := s.nbtn
  nhat := s.nhat
  ax := s.snapAx.take s.nax.toNat
  btn := s.snapBtn.take s.nbtn.toNat
  hat := s.snapHat.take s.nhat.toNat

/-- The display record of the snapshot status (42_snapshot.md R157). -/
def displayRecord (s : State) : DisplayRecord :=
  if s.snapValid then .fresh (snapshotView s)
  else if s.snapEver then .stale (snapshotView s)
  else .none

/-- The 2-bit tag of a display record (42_snapshot.md R157). -/
def displayTag : DisplayRecord → BitVec 2
  | .fresh _ => 0#2
  | .stale _ => 1#2
  | .none => 2#2

/-- The bytes a SEND takes from the buffer: `FBUF[0 .. n-1]` (44_serial_transmitter.md R193). -/
def bufferBytes (s : State) (n : Nat) : List Byte := s.fbuf.toList.take n

end Sys2Proof.Machine
end

