-- ==== Sys2Proof/Machine/Ops.lean ====
section
/-! DEFINITION. The shared operations the meanings are written over: how an action ends (`done`, `fail`:
00_scope.md R14, the block's whole error mechanism, 60_exceptions.md R253), the legality check
(45_sequencer.md R218), the oracle draws (00_scope.md R9), and the writes of the micro-operations. -/

namespace Sys2Proof.Machine

/-! ### Ending an action (00_scope.md R14) -/

/-- `done(code)`: `RESULT <- code` (00_scope.md R14). -/
def done (c : ResultCode) (s : State) : State := { s with result := codeByte c }

/-- `emit(LOG, (code, op))` (60_exceptions.md R251). -/
def emitLog (c : ResultCode) (op : Byte) (s : State) : State :=
  { s with log := s.log ++ [{ code := codeByte c, op := op }] }

/-- `fail(code)`: `RESULT <- code`, and a LOG record if the code is logged; `op` is the opcode of the
command or action running, a nested micro-operation's caller included (00_scope.md R14;
45_sequencer.md R219). This is all an error does: there is no trap (60_exceptions.md R253). -/
def fail (c : ResultCode) (op : Byte) (s : State) : State :=
  if isLogged c then emitLog c op (done c s) else done c s

/-- The legality check of a host command (45_sequencer.md R218): its rule in a legal loop state,
BadState in another. `LOOP = 3` is a defect (93_implementation_defined.md item 21, log entry 7). -/
def whenLegal (legal : BitVec 2 → Bool) (op : Byte) (act : State → State) (s : State) :
    Host.Outcome State Fault Refusal :=
  if s.loop = loopNeverHeld then .fault .loopReserved
  else if legal s.loop then .next (act s)
  else .next (fail .badState op s)

/-! ### Oracle draws (00_scope.md R9, log entry 4) -/

/-- The answer the next draw of `O_OPEN(P_DEV_ID)` gives. -/
def openAnswer (s : State) : OpenAnswer :=
  match s.openScript with
  | a :: _ => a
  | [] => Config.openOracle s.params.devId s.openDraws

/-- The draw of `O_OPEN` is used up. -/
def drawOpen (s : State) : State :=
  { s with openScript := s.openScript.tail, openDraws := s.openDraws + 1 }

/-- The answer the next draw of `O_TX(n)` gives, in 0..n. -/
def txAnswer (s : State) (n : Nat) : Nat :=
  match s.txScript with
  | k :: _ => min k n
  | [] => (Config.txOracle n s.txDraws).val

/-- The draw of `O_TX` is used up. -/
def drawTx (s : State) : State :=
  { s with txScript := s.txScript.tail, txDraws := s.txDraws + 1 }

/-! ### Writes of the sequencer (45_sequencer.md) -/

/-- `ENTER_SHUTDOWN()` (45_sequencer.md R226). -/
def enterShutdown (s : State) : State :=
  { s with
    loop := loopShutdown
    tickPend := 0#16
    devPresent := false
    evq := []
    flen := 0#5
    port := false
    rxq := [] }

/-- The last three writes of START (R224) before its `done(OK)`. -/
def enterTicking (s : State) : State :=
  { s with flen := 0#5, tickPend := 0#16, loop := loopTicking }

/-- One unit of the tick backlog is taken (R231). -/
def takeTick (s : State) : State := { s with tickPend := s.tickPend - 1#16 }

/-- `FATAL_CODE <- code` (10_state.md R26). -/
def setFatal (c : ResultCode) (s : State) : State := { s with fatalCode := codeByte c }

/-! ### Writes of the snapshot unit (42_snapshot.md) -/

/-- `EVQ <- []` (42_snapshot.md R147). -/
def clearEvents (s : State) : State := { s with evq := [] }

/-- `SNAP_VALID <- 0`: the null snapshot, the snapshot registers kept (R155). -/
def clearValid (s : State) : State := { s with snapValid := false }

/-- `CAPTURE()` (42_snapshot.md R154): the whole live state at once. -/
def capture (s : State) : State :=
  { s with
    snapAx := s.liveAx
    snapBtn := s.liveBtn
    snapHat := s.liveHat
    snapValid := true
    snapEver := true }

/-- `LIVE_AX[i] <- v` where the device is present and has axis `i` (42_snapshot.md R148). -/
def writeLiveAxis (index : Byte) (v : AxisWord) (s : State) : State :=
  if s.devPresent && decide (index.toNat < s.nax.toNat) then
    { s with liveAx := s.liveAx.set index.toNat v }
  else s

/-- `LIVE_BTN[i] <- b` where the device is present and has button `i` (R149, R150). -/
def writeLiveButton (index : Byte) (b : Bool) (s : State) : State :=
  if s.devPresent && decide (index.toNat < s.nbtn.toNat) then
    { s with liveBtn := s.liveBtn.set index.toNat b }
  else s

/-- `LIVE_HAT[i] <- c[3:0]` where the device is present, has hat `i` and `c <= 8` (R151). -/
def writeLiveHat (index : Byte) (c : BitVec 64) (s : State) : State :=
  if s.devPresent && decide (index.toNat < s.nhat.toNat) && decide (c.toNat ≤ 8) then
    { s with liveHat := s.liveHat.set index.toNat (c.extractLsb' 0 4) }
  else s

/-- The device is lost, if it was present (R152). -/
def loseDevice (s : State) : State :=
  if s.devPresent then { s with devPresent := false, devLost := true } else s

/-- `DISPLAY()` (42_snapshot.md R157); it writes no `RESULT`. -/
def display (s : State) : State := { s with disp := s.disp ++ [displayRecord s] }

/-! ### Writes of the axis mapper (41_axis_mapper.md) -/

/-- `AXOUT <- n` (41_axis_mapper.md R126). -/
def setAxout (n : Nat) (s : State) : State := { s with axout := percentByte n }

/-! ### Writes of the frame packer (43_frame_packer.md) -/

/-- A motor frame is laid into the buffer: all 17 cells, `FLEN <- 17` (43_frame_packer.md R170). -/
def assembleMotor (f : MotorFrame) (s : State) : State :=
  { s with fbuf := motorCells f, flen := 17#5 }

/-- The reset frame is laid into the buffer: cell 0 only, `FLEN <- 1` (43_frame_packer.md R177). -/
def assembleReset (s : State) : State :=
  { s with fbuf := s.fbuf.set 0 251#8, flen := 1#5 }

/-- No frame is pending: `FLEN <- 0`. -/
def dropFrame (s : State) : State := { s with flen := 0#5 }

/-! ### Writes of the transmitter (44_serial_transmitter.md) -/

/-- `TX_RESULT <- code` (10_state.md R37). -/
def setTxResult (c : ResultCode) (s : State) : State := { s with txResult := codeByte c }

/-- `emit(WIRE, b)` for each byte in order (44_serial_transmitter.md R193). -/
def emitWire (bytes : List Byte) (s : State) : State := { s with wire := s.wire ++ bytes }

/-- `emit(INB, bytes)` (44_serial_transmitter.md R204). -/
def emitInbound (bytes : List Byte) (s : State) : State := { s with inb := s.inb ++ [bytes] }

/-- `RXQ <- []` (R204). -/
def clearInbound (s : State) : State := { s with rxq := [] }

/-- `PORT <- OPEN; RXQ <- []` (R186). -/
def portUp (s : State) : State := { s with port := true, rxq := [] }

/-- `PORT <- CLOSED; RXQ <- []` (R190). -/
def portDown (s : State) : State := { s with port := false, rxq := [] }

end Sys2Proof.Machine
end

