-- ==== Sys2Proof/Machine/Mapper.lean ====
section
/-! DEFINITION. The axis mapper's diagnostic commands (41_axis_mapper.md R126 to R128). -/

namespace Sys2Proof.Machine

/-- The shared template of the MAP commands (41_axis_mapper.md R126): BadIndex at or above `P_MAX_AX`,
else `AXOUT` holds the conversion of `SNAP_AX[i]`, whatever `SNAP_VALID` and `NAX` are. -/
def mapAxis (op : Byte) (f : Bool → AxisWord → Nat) (index : Byte) (s : State) : State :=
  if s.params.maxAx ≤ index.toNat then fail .badIndex op s
  else done .ok (setAxout (f s.roundTie (snapAxis s index.toNat)) s)

/-- MAP_SYM (41_axis_mapper.md R126). -/
def execMapSym (index : Byte) (s : State) : Host.Outcome State Fault Refusal :=
  whenLegal legalAlways opMapSym (mapAxis opMapSym sym index) s

/-- MAP_SYM_INV (41_axis_mapper.md R127). -/
def execMapSymInv (index : Byte) (s : State) : Host.Outcome State Fault Refusal :=
  whenLegal legalAlways opMapSymInv (mapAxis opMapSymInv symInv index) s

/-- MAP_HALF (41_axis_mapper.md R128). -/
def execMapHalf (index : Byte) (s : State) : Host.Outcome State Fault Refusal :=
  whenLegal legalAlways opMapHalf (mapAxis opMapHalf half index) s

end Sys2Proof.Machine
end

