-- ==== Sys2Proof/Machine/Packer.lean ====
section
/-! DEFINITION. The frame packer (43_frame_packer.md): ENCODE, ENCODE_RESET and the two frames. -/

namespace Sys2Proof.Machine

/-- The packer's minimum counts `MIN_AX` and `MIN_BTN` (43_frame_packer.md R165). -/
def minAx : Nat := 5
def minBtn : Nat := 10

/-- `ENCODE()` (43_frame_packer.md R170), run for the command or action `op`. -/
def encodeOp (op : Byte) (s : State) : State :=
  if !s.snapValid then done .nullSnapshot (dropFrame s)
  else if decide (s.nax.toNat < minAx) || decide (s.nbtn.toNat < minBtn) then
    fail .unsupportedDevice op (dropFrame s)
  else done .ok (assembleMotor (frameOfSnapshot s) s)

/-- `ENCODE_RESET()` (43_frame_packer.md R177). -/
def encodeResetOp (s : State) : State := done .ok (assembleReset s)

/-- ENCODE (43_frame_packer.md R170). -/
def execEncode (s : State) : Host.Outcome State Fault Refusal :=
  whenLegal legalIdle opEncode (encodeOp opEncode) s

/-- ENCODE_RESET (43_frame_packer.md R177). -/
def execEncodeReset (s : State) : Host.Outcome State Fault Refusal :=
  whenLegal legalIdle opEncodeReset encodeResetOp s

/-- MOTOR_FRAME: the packer lays this frame into the buffer and reports OK, as ENCODE does with the
frame of the snapshot (43_frame_packer.md R170; log entry 8). -/
def execMotorFrame (frame : MotorFrame) (s : State) : Host.Outcome State Fault Refusal :=
  .next (done .ok (assembleMotor frame s))

/-- RESET_FRAME: the packer lays the reset frame into the buffer and reports OK, as ENCODE_RESET does
(43_frame_packer.md R177; log entry 8). -/
def execResetFrame (s : State) : Host.Outcome State Fault Refusal :=
  .next (done .ok (assembleReset s))

end Sys2Proof.Machine
end

