-- ==== Sys2Proof/Machine/Snapshot.lean ====
section
/-! DEFINITION. The snapshot unit (42_snapshot.md): APPLY of each event type, DRAIN, SAMPLE. -/

namespace Sys2Proof.Machine

/-- APPLY of one record (42_snapshot.md R148 to R153): by its type; a record of an unassigned type
has no effect. -/
def applyRecord (s : State) (e : EventWord) : State :=
  if etypeField e = 0x01#8 then writeLiveAxis (indexField e) (valueField e) s
  else if etypeField e = 0x02#8 then writeLiveButton (indexField e) true s
  else if etypeField e = 0x03#8 then writeLiveButton (indexField e) false s
  else if etypeField e = 0x04#8 then writeLiveHat (indexField e) (valueField e) s
  else if etypeField e = 0x05#8 then loseDevice s
  else s

/-- `DRAIN()` (42_snapshot.md R147): every queued record in queue order, then the queue is empty. -/
def drain (s : State) : State := clearEvents (s.evq.foldl applyRecord s)

/-- `SAMPLE()` (42_snapshot.md R146, R155), run for the command or action `op`. -/
def sampleOp (op : Byte) (s : State) : State :=
  let d := drain s
  if d.devPresent then done .ok (capture d)
  else if d.devLost then fail .deviceDisconnected op (clearValid d)
  else fail .deviceNotFound op (clearValid d)

/-- SAMPLE (42_snapshot.md R146). -/
def execSample (s : State) : Host.Outcome State Fault Refusal :=
  whenLegal legalIdle opSample (sampleOp opSample) s

/-- AXIS_MOTION: the record's effect when SAMPLE applies it (42_snapshot.md R148). -/
def execAxisMotion (index : Byte) (value : BitVec 64) (s : State) : Host.Outcome State Fault Refusal :=
  .next (writeLiveAxis index value s)

/-- BUTTON_DOWN: the record's effect when SAMPLE applies it; `VALUE` is ignored (R149). -/
def execButtonDown (index : Byte) (_value : BitVec 64) (s : State) : Host.Outcome State Fault Refusal :=
  .next (writeLiveButton index true s)

/-- BUTTON_UP: the record's effect when SAMPLE applies it; `VALUE` is ignored (R150). -/
def execButtonUp (index : Byte) (_value : BitVec 64) (s : State) : Host.Outcome State Fault Refusal :=
  .next (writeLiveButton index false s)

/-- HAT_MOTION: the record's effect when SAMPLE applies it (R151). -/
def execHatMotion (index : Byte) (value : BitVec 64) (s : State) : Host.Outcome State Fault Refusal :=
  .next (writeLiveHat index value s)

/-- DEVICE_REMOVED: the record's effect when SAMPLE applies it; both fields are ignored (R152). -/
def execDeviceRemoved (_index : Byte) (_value : BitVec 64) (s : State) :
    Host.Outcome State Fault Refusal :=
  .next (loseDevice s)

end Sys2Proof.Machine
end

