-- ==== Sys2Proof/Machine/Transmitter.lean ====
section
/-! DEFINITION. The serial transmitter (44_serial_transmitter.md): OPEN, CLOSE, SEND, POLL_INBOUND, and
the line format of a byte and the level the line rests at (R200). -/

namespace Sys2Proof.Machine

/-- The path of an OPEN the oracle refused with code `c` (44_serial_transmitter.md R186;
60_exceptions.md R256): the fatal code, the shutdown, the result and its log record. -/
def openFailed (c : ResultCode) (op : Byte) (s : State) : State :=
  fail c op (enterShutdown (setFatal c s))

/-- `OPEN()` (44_serial_transmitter.md R186), run for the command `op`. -/
def openOp (op : Byte) (s : State) : State :=
  if s.port then fail .badState op s
  else
    match openAnswer s with
    | .ok => done .ok (portUp (drawOpen s))
    | .portUnavailable => openFailed .portUnavailable op (drawOpen s)
    | .permissionDenied => openFailed .permissionDenied op (drawOpen s)

/-- `CLOSE()` (44_serial_transmitter.md R190). -/
def closeOp (s : State) : State := done .ok (portDown s)

/-- `SEND()` (44_serial_transmitter.md R193), run for the command or action `op`: the first `k` bytes
of the frame reach the wire, the frame is consumed, and `k < n` is a write timeout. -/
def sendOp (op : Byte) (s : State) : State :=
  if !s.port then fail .notOpen op (setTxResult .notOpen (dropFrame s))
  else if s.flen = 0#5 then done .noFrame (setTxResult .noFrame s)
  else
    let n := s.flen.toNat
    let k := txAnswer s n
    let t := dropFrame (emitWire (bufferBytes s k) (drawTx s))
    if k = n then done .ok (setTxResult .ok t)
    else fail .writeTimeout op (setTxResult .writeTimeout t)

/-- `POLL_INBOUND()` (44_serial_transmitter.md R204). -/
def pollInboundOp (op : Byte) (s : State) : State :=
  if !s.port then fail .notOpen op (emitInbound [] s)
  else done .ok (clearInbound (emitInbound s.rxq s))

/-- OPEN (44_serial_transmitter.md R186). -/
def execOpenPort (s : State) : Host.Outcome State Fault Refusal :=
  whenLegal legalIdle opOpen (openOp opOpen) s

/-- CLOSE (44_serial_transmitter.md R190). -/
def execClosePort (s : State) : Host.Outcome State Fault Refusal :=
  whenLegal legalIdle opClose closeOp s

/-- SEND (44_serial_transmitter.md R193). -/
def execSend (s : State) : Host.Outcome State Fault Refusal :=
  whenLegal legalIdle opSend (sendOp opSend) s

/-- POLL_INBOUND (44_serial_transmitter.md R204). -/
def execPollInbound (s : State) : Host.Outcome State Fault Refusal :=
  whenLegal legalAlways opPollInbound (pollInboundOp opPollInbound) s

/-- The ten line levels of one character, first to last, `false` = space, `true` = mark: a start bit,
the eight data bits least significant first, one stop bit, no parity (44_serial_transmitter.md R200). -/
def lineLevels (b : Byte) : List Bool :=
  false :: (List.range 8).map (fun i => b.getLsbD i) ++ [true]

/-- The level the line rests at between characters: mark (44_serial_transmitter.md R200). -/
def lineRest : Bool := true

/-- The line at rest for `n` bit times (R200, R203). That a rest is counted in whole bit times is a DESIGN
CHOICE, log entry 13. -/
def lineIdle (n : Nat) : List Bool := List.replicate n lineRest

/-- The line's levels, bit time by bit time: each character after the rest before it, and the rest after the
last one. Any rest may separate two characters (R200, R203). -/
def lineSignal (chars : List (Nat × Byte)) (after : Nat) : List Bool :=
  chars.flatMap (fun c => lineIdle c.1 ++ lineLevels c.2) ++ lineIdle after

/-- The line levels of a byte sequence sent with no rest: one case of `lineSignal` (R203). -/
def lineWaveform (bytes : List Byte) : List Bool := lineSignal (bytes.map (fun b => (0, b))) 0

end Sys2Proof.Machine
end

