-- ==== Sys2Proof/Machine/Sequencer.lean ====
section
/-! DEFINITION. The sequencer's commands and the tick (45_sequencer.md R222 to R231). -/

namespace Sys2Proof.Machine

/-- `START()` (45_sequencer.md R224): the port is opened if it is closed, and the loop starts only with
an open port. A failure inside is logged with START's opcode (R219). -/
def startOp (s : State) : State :=
  if s.port then done .ok (enterTicking s)
  else
    let o := openOp opStart s
    if o.loop = loopShutdown then o else done .ok (enterTicking o)

/-- `QUIT()` (45_sequencer.md R227). -/
def quitOp (s : State) : State :=
  if s.loop = loopShutdown then done .ok s else done .ok (enterShutdown s)

/-- `RESET_REQ()` (45_sequencer.md R229). -/
def resetReqOp (s : State) : State := sendOp opResetReq (encodeResetOp s)

/-- The encode and send stages of a tick (45_sequencer.md R231). -/
def tickStages (s : State) : State :=
  if s.snapValid then
    let e := encodeOp opTick s
    if e.flen = 17#5 then sendOp opTick e else e
  else s

/-- `TICK()` (45_sequencer.md R231). -/
def tickOp (s : State) : State :=
  display (tickStages (sampleOp opTick (takeTick s)))

/-- NOP (45_sequencer.md R222). -/
def execNop (s : State) : Host.Outcome State Fault Refusal :=
  whenLegal legalAlways opNop (done .ok) s

/-- START (45_sequencer.md R224). -/
def execStart (s : State) : Host.Outcome State Fault Refusal :=
  whenLegal legalIdle opStart startOp s

/-- QUIT (45_sequencer.md R227). -/
def execQuit (s : State) : Host.Outcome State Fault Refusal :=
  whenLegal legalAlways opQuit quitOp s

/-- RESET_REQ (45_sequencer.md R229). -/
def execResetReq (s : State) : Host.Outcome State Fault Refusal :=
  whenLegal legalTicking opResetReq resetReqOp s

/-- TICK (45_sequencer.md R231): the arbitration has already checked `LOOP = TICKING` and
`TICK_PEND > 0` (R216; log entry 9). -/
def execTick (s : State) : Host.Outcome State Fault Refusal :=
  .next (tickOp s)

end Sys2Proof.Machine
end

