-- ==== Sys2Proof/Machine/Dispatch.lean ====
section
/-! DEFINITION. One arm per instruction, one direct call of its meaning. -/

namespace Sys2Proof.Machine

def exec (i : Instr) (s : State) : Host.Outcome State Fault Refusal :=
  match i with
  | .nop => Sys2Proof.Machine.execNop s
  | .start => Sys2Proof.Machine.execStart s
  | .quit => Sys2Proof.Machine.execQuit s
  | .resetReq => Sys2Proof.Machine.execResetReq s
  | .tick => Sys2Proof.Machine.execTick s
  | .pollInbound => Sys2Proof.Machine.execPollInbound s
  | .mapSym index => Sys2Proof.Machine.execMapSym index s
  | .mapSymInv index => Sys2Proof.Machine.execMapSymInv index s
  | .mapHalf index => Sys2Proof.Machine.execMapHalf index s
  | .sample => Sys2Proof.Machine.execSample s
  | .encode => Sys2Proof.Machine.execEncode s
  | .encodeReset => Sys2Proof.Machine.execEncodeReset s
  | .send => Sys2Proof.Machine.execSend s
  | .openPort => Sys2Proof.Machine.execOpenPort s
  | .closePort => Sys2Proof.Machine.execClosePort s
  | .axisMotion index value => Sys2Proof.Machine.execAxisMotion index value s
  | .buttonDown index value => Sys2Proof.Machine.execButtonDown index value s
  | .buttonUp index value => Sys2Proof.Machine.execButtonUp index value s
  | .hatMotion index value => Sys2Proof.Machine.execHatMotion index value s
  | .deviceRemoved index value => Sys2Proof.Machine.execDeviceRemoved index value s
  | .motorFrame frame => Sys2Proof.Machine.execMotorFrame frame s
  | .resetFrame => Sys2Proof.Machine.execResetFrame s

end Sys2Proof.Machine
end

