-- ==== Sys2Proof/Machine/Registers.lean ====
section
/-! DEFINITION. The host's register read space (20_memory.md R61 to R63). -/

namespace Sys2Proof.Machine

/-- The registers at addresses 0x00 to 0x1F (20_memory.md R62); 0x14 to 0x1F are reserved.
The counts at 0x0D to 0x0F are the queue lengths; R10 bounds the capacities from below only, and what a
length of 2^64 or more reads as no rule says: a FREE VALUE (DESIGN CHOICE, log entry 15). -/
def statusRegister (s : State) (addr : Nat) : BitVec 64 :=
  match addr with
  | 0x00 => s.loop.setWidth 64
  | 0x01 => bit s.port
  | 0x02 => deviceStatus s
  | 0x03 => s.nax.setWidth 64
  | 0x04 => s.nbtn.setWidth 64
  | 0x05 => s.nhat.setWidth 64
  | 0x06 => snapshotStatus s
  | 0x07 => s.flen.setWidth 64
  | 0x08 => s.result.setWidth 64
  | 0x09 => s.txResult.setWidth 64
  | 0x0A => s.fatalCode.setWidth 64
  | 0x0B => s.axout.setWidth 64
  | 0x0C => s.tickPend.setWidth 64
  | 0x0D => atWidth 64 0x0D#8 s.evq.length
  | 0x0E => atWidth 64 0x0E#8 s.rxq.length
  | 0x0F => atWidth 64 0x0F#8 s.hcq.length
  | 0x10 => s.baud.setWidth 64
  | 0x11 => s.wtoMs.setWidth 64
  | 0x12 => s.periodMs.setWidth 64
  | 0x13 => bit s.roundTie
  | _ => 0#64

/-- `RegRead(addr)`: the register zero-extended to 64 bits; a reserved address, and a window slot at or
beyond its capacity, reads 0 (20_memory.md R61 to R63). -/
def regRead (s : State) (addr : Byte) : BitVec 64 :=
  let a := addr.toNat
  if a < 0x20 then statusRegister s a
  else if a < 0x40 then (s.fbuf.toList.getD (a - 0x20) 0#8).setWidth 64
  else if a < 0x80 then (if a - 0x40 < s.params.maxAx then snapAxis s (a - 0x40) else 0#64)
  else if a < 0xC0 then (if a - 0x80 < s.params.maxBtn then bit (s.snapBtn.getD (a - 0x80) false) else 0#64)
  else if a - 0xC0 < s.params.maxHat then (s.snapHat.getD (a - 0xC0) 0#4).setWidth 64
  else 0#64

end Sys2Proof.Machine
end

