-- ==== Sys2Proof/Machine/Agents.lean ====
section
/-! DEFINITION. The six agents (00_scope.md R8): the sequencer's arbitration and decoding of a host word
(45_sequencer.md R216, R218), the environment's steps, and which agent steps next. -/

namespace Sys2Proof.Machine

/-- `EXEC(w)`: decode, then the command's own rule, which makes the state check (45_sequencer.md R218).
A word that decodes to nothing completes with IllegalCommand, logged with its `OP` (30_encoding.md R88 to
R90; 60_exceptions.md R251). -/
def execWord (w : CommandWord) (s : State) : Host.Outcome State Fault Refusal :=
  match decodeHostWord w with
  | .ok i => exec i s
  | .error _ => .next (fail .illegalCommand (opField w) s)

/-- A due tick may run: `LOOP = TICKING` and `TICK_PEND > 0` (45_sequencer.md R216). -/
def tickDue (s : State) : Bool := s.loop == loopTicking && s.tickPend != 0#16

/-- `SEQ_STEP()` (45_sequencer.md R216): a pending host command before a due tick; otherwise SEQ is not
enabled and the block waits (60_exceptions.md R274). -/
def seqStep (s : State) : Host.Outcome State Fault Refusal :=
  match s.hcq with
  | w :: rest => execWord w { s with hcq := rest }
  | [] => if tickDue s then exec .tick s else .next s

/-- `TIMER_STEP()`, enabled while TICKING (45_sequencer.md R237). -/
def timerStep (s : State) : State :=
  if s.loop = loopTicking ∧ s.tickPend.toNat < s.params.tickPendMax then
    { s with tickPend := s.tickPend + 1#16 }
  else s

/-- `DEVICE_STEP(e)`, enabled while attached and not in SHUTDOWN (42_snapshot.md R141 to R143). -/
def deviceStep (e : EventWord) (s : State) : State :=
  if s.devAttached && s.loop != loopShutdown then
    if etypeField e = 0x05#8 then { s with evq := s.evq ++ [e], devAttached := false }
    else if s.evq.length < s.params.evqCap then { s with evq := s.evq ++ [e] }
    else s
  else s

/-- The HOST appends a word while the queue is not full (45_sequencer.md R215). -/
def enqueueStep (w : CommandWord) (s : State) : State :=
  if s.hcq.length < s.params.hcqCap then { s with hcq := s.hcq ++ [w] } else s

/-- The HOST reads a register; no state of the block changes (20_memory.md R61). -/
def readStep (addr : Byte) (s : State) : State :=
  { s with reads := s.reads ++ [{ addr := addr, value := regRead s addr }] }

/-- `LINE_STEP(b)`, enabled while the port is open (44_serial_transmitter.md R206). -/
def lineStep (b : Byte) (s : State) : State :=
  if s.port && decide (s.rxq.length < s.params.rxCap) then { s with rxq := s.rxq ++ [b] } else s

/-- One step of the named agent. A step of an agent that is not enabled is no step: it changes nothing
(log entry 3). -/
def agentStep (a : AgentStep) (s : State) : Host.Outcome State Fault Refusal :=
  match a with
  | .seq => seqStep s
  | .timer => .next (timerStep s)
  | .device e => .next (deviceStep e s)
  | .enqueue w => .next (enqueueStep w s)
  | .read addr => .next (readStep addr s)
  | .line b => .next (lineStep b s)

/-- The host waits: its queue is full, so the word is neither taken nor lost (45_sequencer.md R215,
R244). -/
def mustWait (a : AgentStep) (s : State) : Bool :=
  match a with
  | .enqueue _ => decide (s.params.hcqCap ≤ s.hcq.length)
  | .seq | .timer | .device _ | .read _ | .line _ => false

/-- The machine's next step: the agent the agenda names, or SEQ when the agenda is empty or its first
entry has to wait for SEQ (log entry 3). -/
def nextStep (s : State) : Host.Outcome State Fault Refusal :=
  match s.agenda with
  | [] => seqStep s
  | a :: rest => if mustWait a s then seqStep s else agentStep a { s with agenda := rest }

/-! ### Placing an instruction where the next step takes it (log entry 10) -/

/-- SEQ is the agent that steps next. -/
def letSeqStep (s : State) : State := { s with agenda := .seq :: s.agenda }

/-- The word at the head of `HCQ`, in place of the one there. -/
def placeCommand (w : CommandWord) (s : State) : State := { s with hcq := w :: s.hcq.tail }

/-- A due tick with no host command before it; TICKING has the port open (10_state.md R43(b)). -/
def placeTick (s : State) : State :=
  { s with
    hcq := []
    loop := loopTicking
    port := true
    tickPend := if s.tickPend = 0#16 then 1#16 else s.tickPend }

/-- The record alone in `EVQ`, and SAMPLE the next command. -/
def placeEvent (e : EventWord) (s : State) : State :=
  placeCommand (commandOf opSample 0#8) { s with evq := [e], loop := loopIdle }

/-- A word `v` with `SYM(v) = n`, for n in 0..100. -/
def axisWordOfSym (n : Nat) : AxisWord :=
  if 50 ≤ n then ofRatio64 false (n - 50) 50 else ofRatio64 true (50 - n) 50

/-- A word `v` with `HALF(v) = n`, for n in 0..100. -/
def axisWordOfHalf (n : Nat) : AxisWord := ofRatio64 true n 100

/-- A snapshot that ENCODE packs into exactly this frame, and ENCODE the next command. -/
def placeMotorFrame (f : MotorFrame) (s : State) : State :=
  placeCommand (commandOf opEncode 0#8)
    { s with
      loop := loopIdle
      snapValid := true
      snapEver := true
      nax := BitVec.ofNat 8 (max s.nax.toNat 5)
      nbtn := BitVec.ofNat 8 (max s.nbtn.toNat 10)
      snapAx :=
        [axisWordOfSym f.axis0.toNat, axisWordOfHalf f.leftY.toNat, axisWordOfSym f.axis2.toNat,
         axisWordOfSym f.axis3.toNat, fneg64 (axisWordOfSym f.axis4Inv.toNat)] ++ s.snapAx.drop 5
      snapBtn := f.buttonBytes.map (fun b => b != 0#8) ++ s.snapBtn.drop 10 }

/-- ENCODE_RESET the next command. -/
def placeResetFrame (s : State) : State :=
  placeCommand (commandOf opEncodeReset 0#8) { s with loop := loopIdle }

/-- The encoded form placed where the next step takes it; bits that are no instruction of a frame change
nothing. -/
def placeEncoded (x : Encoded) (s : State) : State :=
  match x with
  | .command w => if decodeCommand w = .ok .tick then placeTick s else placeCommand w s
  | .event e => placeEvent e s
  | .frame bytes =>
    match decodeFrame bytes with
    | .ok (.motorFrame f) => placeMotorFrame f s
    | .ok .resetFrame => placeResetFrame s
    | _ => s

end Sys2Proof.Machine
end

