-- ==== Sys2Proof/Machine/Step.lean ====
section
/-! DEFINITION. The machine's step, and where an instruction is placed so that the next step runs it. -/

namespace Sys2Proof.Machine

/-- One step of one agent (00_scope.md R8). -/
def step (s : State) : Host.Outcome State Fault Refusal := nextStep s

/-- `s` with the opcode-table row's bits where the next step takes its instruction (log entry 10). -/
def State.withFetchWord (s : State) (nbits w : Nat) : State :=
  letSeqStep (placeEncoded (tableEncoded nbits w) s)

end Sys2Proof.Machine
end

