-- ==== Sys2Proof/Safety.lean ====
section
/-! DEFINITION. What the statements speak of: the invariant of 10_state.md R43 with the facts it rests
on, the end of a run (70_reset_and_hazards.md R295), and runs of the agents with their fairness
(45_sequencer.md R240). -/

namespace Sys2Proof.Machine

/-- A byte the block may put on the wire: 0..100, 250 or 251 (43_frame_packer.md R175). -/
abbrev WireByte (b : Byte) : Prop := b.toNat ≤ 100 ∨ b = 250#8 ∨ b = 251#8

/-- A code of the list of 60_exceptions.md R245. -/
abbrev ListedCode (b : Byte) : Prop :=
  b ∈ [0x00#8, 0x01#8, 0x02#8, 0x03#8, 0x04#8, 0x05#8, 0x06#8, 0x10#8, 0x11#8, 0x12#8, 0x13#8, 0x14#8,
    0x15#8]

/-- A code that produces a LOG record (60_exceptions.md R250). -/
abbrev LoggedCode (b : Byte) : Prop :=
  b ∈ [0x01#8, 0x02#8, 0x03#8, 0x04#8, 0x05#8, 0x06#8, 0x12#8, 0x13#8, 0x14#8, 0x15#8]

/-- The DEVICE_REMOVED records of a queue. -/
def removals (q : List EventWord) : List EventWord := q.filter (fun e => etypeField e == 0x05#8)

/-- The other records of a queue. -/
def ordinaryRecords (q : List EventWord) : List EventWord := q.filter (fun e => etypeField e != 0x05#8)

/-- The invariant every step keeps. The letters are those of 10_state.md R43. -/
structure Inv (s : State) : Prop where
  /-- the parameters are legal (00_scope.md R10) -/
  params_legal : s.params.Legal
  /-- `LOOP = 3` is never held (R22) -/
  loop_held : s.loop ≠ 3#2
  /-- (a) -/
  flen_values : s.flen = 0#5 ∨ s.flen = 1#5 ∨ s.flen = 17#5
  /-- (b) -/
  ticking_open : s.loop = loopTicking → s.port = true
  /-- (c) -/
  valid_ever : s.snapValid = true → s.snapEver = true
  /-- (d), first half -/
  lost_absent : s.devLost = true → s.devPresent = false
  /-- (d), second half -/
  present_found : s.devPresent = true → s.devFound = true
  /-- (e) -/
  fatal_shutdown : s.fatalCode ≠ 0x00#8 → s.loop = loopShutdown
  /-- (f) -/
  shutdown_quiet : s.loop = loopShutdown → s.port = false ∧ s.devPresent = false ∧ s.tickPend = 0#16
  /-- (g) -/
  wire_alphabet : ∀ b ∈ s.wire, WireByte b
  /-- what (g) rests on: the buffer holds only bytes that may be sent -/
  buffer_alphabet : ∀ b ∈ s.fbuf.toList, WireByte b
  /-- a pending frame starts with the byte of its type (30_encoding.md R100) -/
  frame_head : (s.flen = 17#5 → s.fbuf[0] = 250#8) ∧ (s.flen = 1#5 → s.fbuf[0] = 251#8)
  /-- (h), `EVQ`: ordinary records up to the capacity (R29) -/
  evq_ordinary : (ordinaryRecords s.evq).length ≤ s.params.evqCap
  /-- (h), `EVQ`: at most one removal, none while the device is attached (42_snapshot.md R141) -/
  evq_removal : (removals s.evq).length ≤ if s.devAttached then 0 else 1
  /-- (h), `RXQ` -/
  rxq_bound : s.rxq.length ≤ s.params.rxCap
  /-- (h), `HCQ` -/
  hcq_bound : s.hcq.length ≤ s.params.hcqCap
  /-- (h), `TICK_PEND` -/
  tick_bound : s.tickPend.toNat ≤ s.params.tickPendMax
  /-- the register arrays have their capacities (R28, R31) -/
  live_sizes : s.liveAx.length = s.params.maxAx ∧ s.liveBtn.length = s.params.maxBtn ∧
    s.liveHat.length = s.params.maxHat
  snap_sizes : s.snapAx.length = s.params.maxAx ∧ s.snapBtn.length = s.params.maxBtn ∧
    s.snapHat.length = s.params.maxHat
  /-- the counts are within the capacities (R27) -/
  counts_bound : s.nax.toNat ≤ s.params.maxAx ∧ s.nbtn.toNat ≤ s.params.maxBtn ∧
    s.nhat.toNat ≤ s.params.maxHat
  /-- hat codes are 0..8 (00_scope.md R11) -/
  hat_codes : (∀ c ∈ s.liveHat, c.toNat ≤ 8) ∧ (∀ c ∈ s.snapHat, c.toNat ≤ 8)
  /-- `AXOUT` is 0..100 (20_memory.md R62) -/
  axout_range : s.axout.toNat ≤ 100
  /-- only listed codes are produced (60_exceptions.md R245) -/
  result_listed : ListedCode s.result
  /-- the codes of a SEND (R37) -/
  tx_listed : s.txResult ∈ [0x00#8, 0x05#8, 0x11#8, 0x12#8]
  /-- the codes of a failed open (R26) -/
  fatal_listed : s.fatalCode ∈ [0x00#8, 0x03#8, 0x04#8]
  /-- every LOG record carries a logged code (60_exceptions.md R250) -/
  log_logged : ∀ r ∈ s.log, LoggedCode r.code
  /-- the configuration registers hold the parameters (R40; one too wide for its register, log entry 2) -/
  config_regs : s.baud = atWidth 32 0x10#8 s.params.baud ∧ s.wtoMs = atWidth 16 0x11#8 s.params.wtoMs ∧
    s.periodMs = atWidth 16 0x12#8 s.params.periodMs ∧
    (s.roundTie = true ↔ s.params.roundTie = .halfAway)

/-- A run has ended (70_reset_and_hazards.md R295). -/
def RunEnded (s : State) : Prop := s.loop = loopShutdown ∧ s.hcq = []

/-- The agent of a step may take it (00_scope.md R8, column "enabled when"). -/
def agentEnabled (a : AgentStep) (s : State) : Bool :=
  match a with
  | .seq => !s.hcq.isEmpty || tickDue s
  | .timer => s.loop == loopTicking
  | .device _ => s.devAttached && s.loop != loopShutdown
  | .enqueue _ => decide (s.hcq.length < s.params.hcqCap)
  | .read _ => true
  | .line _ => s.port

/-- The states `σ 0, σ 1, …` follow each other: at each point an enabled agent takes its step, or no agent
does and nothing changes. So an agent may stay silent for ever (45_sequencer.md R240), and a run that stops
is one where no agent steps from some point on. -/
def IsRun (σ : Nat → State) (a : Nat → Option AgentStep) : Prop :=
  ∀ n, match a n with
    | some x => agentEnabled x (σ n) = true ∧ agentStep x (σ n) = .next (σ (n + 1))
    | none => σ (n + 1) = σ n

/-- The admissible runs: weakly fair to SEQ and, while TICKING, to TIMER; nothing is asked of the HOST, the
DEVICE or the LINE (45_sequencer.md R240). -/
def Admissible (σ : Nat → State) (a : Nat → Option AgentStep) : Prop :=
  IsRun σ a ∧
  (∀ n, (∀ m, n ≤ m → agentEnabled .seq (σ m) = true) → ∃ m, n ≤ m ∧ a m = some .seq) ∧
  (∀ n, (∀ m, n ≤ m → (σ m).loop = loopTicking) → ∃ m, n ≤ m ∧ a m = some .timer)

/-- The state right after reset with parameters `p`, before the environment's choices: any agenda and
any oracle answers (00_scope.md R8, R9). -/
def resetIn (p : Params) (agenda : List AgentStep) (opens : List OpenAnswer) (txs : List Nat) : State :=
  { State.resetWith p with agenda := agenda, openScript := opens, txScript := txs }

end Sys2Proof.Machine
end

