-- ==== Sys2Proof/Certificates/Slice0/Obligations.lean ====
section
/-! DEFINITION. The statements for the provers. Each docstring names the rule it formalises. -/

open Sys2Proof Sys2Proof.Machine

/-! ### Encoding -/

/-- Decoding the encoding of any instruction the encodings admit gives it back (30_encoding.md R86, R87,
R96, R97, R101, R102). -/
def Obligations.DecodeOfEncodeIsIdentity : Prop :=
  ∀ i : Instr, i.wellFormed = true → decode (encode i) = .ok i

/-- Bits that decode to an instruction are its encoding, and the instruction is one the encodings admit:
each word has one meaning and no bit is dropped. -/
def Obligations.EncodeOfDecodeIsIdentity : Prop :=
  ∀ (x : Encoded) (i : Instr), decode x = .ok i → encode i = x ∧ i.wellFormed = true

/-- A few words of 30_encoding.md R87, R97, R102, the frame of scenario A in the layout of R101, and of 95_test_vectors.md decode to what they
stand for. -/
def Obligations.SpecWordsDecode : Prop :=
  decodeHostWord 0x0904#16 = .ok (.mapSym 4#8) ∧
  decodeHostWord 0x0B01#16 = .ok (.mapHalf 1#8) ∧
  decodeHostWord 0x1400#16 = .ok .openPort ∧
  decodeHostWord 0x0400#16 = .error .tickFromHost ∧
  decodeEvent 0x0101BFF0000000000000#80 = .ok (.axisMotion 1#8 0xBFF0000000000000#64) ∧
  decodeEvent 0x04000000000000000003#80 = .ok (.hatMotion 0#8 3#64) ∧
  decodeFrame [250#8, 0#8, 50#8, 50#8, 50#8, 50#8, 0#8, 0#8, 0#8, 0#8, 0#8, 0#8, 0#8, 0#8, 0#8, 0#8, 0#8] =
    .ok (.motorFrame
      { leftY := 0#8, axis0 := 50#8, axis4Inv := 50#8, axis3 := 50#8, axis2 := 50#8, btnA := 0#8
        btnB := 0#8, btnX := 0#8, btnY := 0#8, btnLB := 0#8, btnRB := 0#8, btnBack := 0#8
        btnStart := 0#8, btnLStick := 0#8, btnRStick := 0#8, dpad := 0#8 }) ∧
  decodeFrame [251#8] = .ok .resetFrame

/-- R88: a host word with a reserved `OP`, or `OP = 0x04`, completes with IllegalCommand and no other
effect, in every loop state; only the word leaves the queue. -/
def Obligations.ReservedOpcodeIsIllegalCommand : Prop :=
  ∀ (s : State) (w : CommandWord) (rest : List CommandWord),
    s.agenda = [] → s.hcq = w :: rest →
    ((0x04 ≤ (opField w).toNat ∧ (opField w).toNat ≤ 0x07) ∨
     (0x0C ≤ (opField w).toNat ∧ (opField w).toNat ≤ 0x0F) ∨ 0x16 ≤ (opField w).toNat) →
    step s = .next { s with
      hcq := rest, result := 0x14#8, log := s.log ++ [⟨0x14#8, opField w⟩] }

/-- R89: a nonzero `ARG` on a command that takes none is IllegalCommand with no other effect; for the
three MAP commands `ARG` is the index as it stands, and an index at or above `P_MAX_AX` is BadIndex. -/
def Obligations.OperandRule : Prop :=
  (∀ (s : State) (w : CommandWord) (rest : List CommandWord),
    s.agenda = [] → s.hcq = w :: rest →
    (opField w).toNat ∈ [0x00, 0x01, 0x02, 0x03, 0x08, 0x10, 0x11, 0x12, 0x13, 0x14, 0x15] →
    argField w ≠ 0#8 →
    step s = .next { s with
      hcq := rest, result := 0x14#8, log := s.log ++ [⟨0x14#8, opField w⟩] }) ∧
  (∀ index : Byte,
    decodeHostWord (commandOf 0x09#8 index) = .ok (.mapSym index) ∧
    decodeHostWord (commandOf 0x0A#8 index) = .ok (.mapSymInv index) ∧
    decodeHostWord (commandOf 0x0B#8 index) = .ok (.mapHalf index)) ∧
  (∀ (s : State) (index : Byte), s.loop ≠ 3#2 → s.params.maxAx ≤ index.toNat →
    exec (.mapSym index) s = .next { s with result := 0x15#8, log := s.log ++ [⟨0x15#8, 0x09#8⟩] } ∧
    exec (.mapSymInv index) s = .next { s with result := 0x15#8, log := s.log ++ [⟨0x15#8, 0x0A#8⟩] } ∧
    exec (.mapHalf index) s = .next { s with result := 0x15#8, log := s.log ++ [⟨0x15#8, 0x0B#8⟩] })

/-! ### What a step runs -/

/-- R216: SEQ is enabled exactly with a pending host command or, while TICKING, a due tick; a pending
host command is taken before a due tick, host commands in arrival order. -/
def Obligations.ArbitrationHostBeforeTick : Prop :=
  (∀ s : State, agentEnabled .seq s = true ↔ s.hcq ≠ [] ∨ (s.loop = 1#2 ∧ s.tickPend ≠ 0#16)) ∧
  (∀ (s : State) (w : CommandWord) (rest : List CommandWord), s.hcq = w :: rest →
    seqStep s = execWord w { s with hcq := rest }) ∧
  (∀ s : State, s.hcq = [] → s.loop = 1#2 → s.tickPend ≠ 0#16 → seqStep s = exec .tick s)

/-- The step at a state whose next command word decodes to an instruction is that instruction's meaning,
with the word taken out of the queue (45_sequencer.md R216, R218). -/
def Obligations.StepRunsDecodedCommand : Prop :=
  ∀ (s : State) (w : CommandWord) (rest : List CommandWord) (i : Instr),
    s.agenda = [] → s.hcq = w :: rest → decodeHostWord w = .ok i →
    step s = exec i { s with hcq := rest }

/-- R147: SAMPLE's drain runs the instruction each queued record decodes to, first to last, drains a
record that decodes to none without effect, and leaves the queue empty. -/
def Obligations.DrainRunsEachRecordInOrder : Prop :=
  (∀ s : State, s.evq = [] → drain s = s) ∧
  (∀ (s : State) (e : EventWord) (rest : List EventWord) (i : Instr) (t : State),
    s.evq = e :: rest → decodeEvent e = .ok i → exec i { s with evq := rest } = .next t →
    drain s = drain t) ∧
  (∀ (s : State) (e : EventWord) (rest : List EventWord) (err : DecodeError),
    s.evq = e :: rest → decodeEvent e = .error err → drain s = drain { s with evq := rest }) ∧
  (∀ s : State, (drain s).evq = [])

/-- ENCODE, where it assembles a frame, runs the motor frame of the snapshot, and ENCODE_RESET runs the
reset frame: how the two frame rows come to run (43_frame_packer.md R170, R177; log entry 8). -/
def Obligations.PackerRunsFrames : Prop :=
  (∀ s : State, s.loop = 0#2 → s.snapValid = true → 5 ≤ s.nax.toNat → 10 ≤ s.nbtn.toNat →
    exec .encode s = exec (.motorFrame (frameOfSnapshot s)) s) ∧
  (∀ s : State, s.loop = 0#2 → exec .encodeReset s = exec .resetFrame s)

/-! ### Control commands (45_sequencer.md) -/

/-- R222: NOP sets `RESULT` to OK and nothing else, in every loop state. -/
def Obligations.NopEffect : Prop :=
  decodeHostWord 0x0000#16 = .ok .nop ∧
  ∀ s : State, s.loop ≠ 3#2 → exec .nop s = .next { s with result := 0x00#8 }

/-- R224: START outside IDLE is BadState. In IDLE: an open port is kept and no oracle is drawn; a closed one is opened, and the
loop starts only if the oracle answers OK; a refused open is fatal and logged with START's opcode. -/
def Obligations.StartEffect : Prop :=
  decodeHostWord 0x0100#16 = .ok .start ∧
  (∀ s : State, s.loop = 1#2 ∨ s.loop = 2#2 →
    exec .start s = .next { s with result := 0x13#8, log := s.log ++ [⟨0x13#8, 0x01#8⟩] }) ∧
  (∀ s : State, s.loop = 0#2 → s.port = true →
    exec .start s = .next { s with flen := 0#5, tickPend := 0#16, loop := 1#2, result := 0x00#8 }) ∧
  (∀ s : State, s.loop = 0#2 → s.port = false → openAnswer s = .ok →
    exec .start s = .next { drawOpen s with
      port := true, rxq := [], flen := 0#5, tickPend := 0#16, loop := 1#2, result := 0x00#8 }) ∧
  (∀ s : State, s.loop = 0#2 → s.port = false → openAnswer s = .portUnavailable →
    exec .start s = .next { drawOpen s with
      fatalCode := 0x03#8, loop := 2#2, tickPend := 0#16, devPresent := false, evq := [], flen := 0#5,
      port := false, rxq := [], result := 0x03#8, log := s.log ++ [⟨0x03#8, 0x01#8⟩] }) ∧
  (∀ s : State, s.loop = 0#2 → s.port = false → openAnswer s = .permissionDenied →
    exec .start s = .next { drawOpen s with
      fatalCode := 0x04#8, loop := 2#2, tickPend := 0#16, devPresent := false, evq := [], flen := 0#5,
      port := false, rxq := [], result := 0x04#8, log := s.log ++ [⟨0x04#8, 0x01#8⟩] })

/-- R227, with the writes of R226: QUIT in IDLE or TICKING shuts down and reports OK; in SHUTDOWN it only reports OK. -/
def Obligations.QuitEffect : Prop :=
  decodeHostWord 0x0200#16 = .ok .quit ∧
  (∀ s : State, s.loop = 2#2 → exec .quit s = .next { s with result := 0x00#8 }) ∧
  (∀ s : State, s.loop = 0#2 ∨ s.loop = 1#2 →
    exec .quit s = .next { s with
      loop := 2#2, tickPend := 0#16, devPresent := false, evq := [], flen := 0#5, port := false,
      rxq := [], result := 0x00#8 })

/-- R229: RESET_REQ outside TICKING is BadState. In TICKING it puts the byte 251 on the wire if the channel takes it, and times out with
nothing on the wire if it does not; it reads no snapshot. The port is open in TICKING (10_state.md
R43(b)). -/
def Obligations.ResetReqEffect : Prop :=
  decodeHostWord 0x0300#16 = .ok .resetReq ∧
  (∀ s : State, s.loop = 0#2 ∨ s.loop = 2#2 →
    exec .resetReq s = .next { s with result := 0x13#8, log := s.log ++ [⟨0x13#8, 0x03#8⟩] }) ∧
  (∀ s : State, s.loop = 1#2 → s.port = true → txAnswer s 1 = 1 →
    exec .resetReq s = .next { drawTx s with
      fbuf := s.fbuf.set 0 251#8, flen := 0#5, wire := s.wire ++ [251#8], txResult := 0x00#8,
      result := 0x00#8 }) ∧
  (∀ s : State, s.loop = 1#2 → s.port = true → txAnswer s 1 = 0 →
    exec .resetReq s = .next { drawTx s with
      fbuf := s.fbuf.set 0 251#8, flen := 0#5, txResult := 0x05#8, result := 0x05#8,
      log := s.log ++ [⟨0x05#8, 0x03#8⟩] })

/-- R231: TICK takes one unit of backlog and samples. A null snapshot sends nothing, and the display gets
the last-known snapshot or none. A controller with too few inputs sends nothing. Otherwise the frame of
the new snapshot is sent, whole or a prefix of it, and the display gets the new snapshot. Never legal
from the host. -/
def Obligations.TickEffect : Prop :=
  (∀ arg : Byte, decodeHostWord (commandOf 0x04#8 arg) = .error .tickFromHost) ∧
  (∀ s : State, s.agenda = [] → s.hcq = [] → s.loop = 1#2 → s.tickPend ≠ 0#16 →
    step s = exec .tick s) ∧
  (∀ s d : State, s.tickPend ≠ 0#16 → d = drain { s with tickPend := s.tickPend - 1#16 } →
    d.devPresent = false → d.devLost = true →
    exec .tick s = .next { d with
      snapValid := false, result := 0x02#8, log := s.log ++ [⟨0x02#8, 0x04#8⟩],
      disp := s.disp ++ [if s.snapEver then .stale (snapshotView s) else .none] }) ∧
  (∀ s d : State, s.tickPend ≠ 0#16 → d = drain { s with tickPend := s.tickPend - 1#16 } →
    d.devPresent = false → d.devLost = false →
    exec .tick s = .next { d with
      snapValid := false, result := 0x01#8, log := s.log ++ [⟨0x01#8, 0x04#8⟩],
      disp := s.disp ++ [if s.snapEver then .stale (snapshotView s) else .none] }) ∧
  (∀ s d : State, s.tickPend ≠ 0#16 → d = drain { s with tickPend := s.tickPend - 1#16 } →
    d.devPresent = true → s.nax.toNat < 5 ∨ s.nbtn.toNat < 10 →
    exec .tick s = .next { capture d with
      flen := 0#5, result := 0x06#8, log := s.log ++ [⟨0x06#8, 0x04#8⟩],
      disp := s.disp ++ [.fresh (snapshotView (capture d))] }) ∧
  (∀ s d : State, s.tickPend ≠ 0#16 → d = drain { s with tickPend := s.tickPend - 1#16 } →
    d.devPresent = true → 5 ≤ s.nax.toNat → 10 ≤ s.nbtn.toNat → s.port = true →
    txAnswer s 17 = 17 →
    exec .tick s = .next { drawTx (capture d) with
      fbuf := motorCells (frameOfSnapshot (capture d)), flen := 0#5,
      wire := s.wire ++ 250#8 :: (frameOfSnapshot (capture d)).payload,
      txResult := 0x00#8, result := 0x00#8,
      disp := s.disp ++ [.fresh (snapshotView (capture d))] }) ∧
  (∀ s d : State, s.tickPend ≠ 0#16 → d = drain { s with tickPend := s.tickPend - 1#16 } →
    d.devPresent = true → 5 ≤ s.nax.toNat → 10 ≤ s.nbtn.toNat → s.port = true →
    txAnswer s 17 < 17 →
    exec .tick s = .next { drawTx (capture d) with
      fbuf := motorCells (frameOfSnapshot (capture d)), flen := 0#5,
      wire := s.wire ++ (250#8 :: (frameOfSnapshot (capture d)).payload).take (txAnswer s 17),
      txResult := 0x05#8, result := 0x05#8, log := s.log ++ [⟨0x05#8, 0x04#8⟩],
      disp := s.disp ++ [.fresh (snapshotView (capture d))] })

/-! ### Axis mapper (41_axis_mapper.md) -/

/-- R126, R127, R128: below `P_MAX_AX` a MAP command writes `AXOUT` with the conversion of `SNAP_AX[i]`
and `RESULT` with OK, and nothing else, in every loop state, whatever `SNAP_VALID` and `NAX` are; at or
above it is BadIndex, logged. -/
def Obligations.MapCommandsWriteAxout : Prop :=
  (∀ index : Byte, decodeHostWord (commandOf 0x09#8 index) = .ok (.mapSym index) ∧
    decodeHostWord (commandOf 0x0A#8 index) = .ok (.mapSymInv index) ∧
    decodeHostWord (commandOf 0x0B#8 index) = .ok (.mapHalf index)) ∧
  (∀ (s : State) (index : Byte), s.loop ≠ 3#2 → s.params.maxAx ≤ index.toNat →
    ∀ (i : Instr) (op : Byte),
      (i, op) ∈ [(Instr.mapSym index, 0x09#8), (.mapSymInv index, 0x0A#8), (.mapHalf index, 0x0B#8)] →
      exec i s = .next { s with result := 0x15#8, log := s.log ++ [⟨0x15#8, op⟩] }) ∧
  ∀ (s : State) (index : Byte), s.loop ≠ 3#2 → index.toNat < s.params.maxAx →
    exec (.mapSym index) s = .next { s with
      axout := BitVec.ofNat 8 (sym s.roundTie (s.snapAx.getD index.toNat 0#64)), result := 0x00#8 } ∧
    exec (.mapSymInv index) s = .next { s with
      axout := BitVec.ofNat 8 (sym s.roundTie (fneg64 (s.snapAx.getD index.toNat 0#64))),
      result := 0x00#8 } ∧
    exec (.mapHalf index) s = .next { s with
      axout := BitVec.ofNat 8 (half s.roundTie (s.snapAx.getD index.toNat 0#64)), result := 0x00#8 }

/-- R122: for every word, NaNs and infinities included, the three functions return 0..100. -/
def Obligations.MapperRange : Prop :=
  ∀ (away : Bool) (v : AxisWord), sym away v ≤ 100 ∧ symInv away v ≤ 100 ∧ half away v ≤ 100

/-- R117: SYM is in 0..100, monotone in the value of its argument, has the three fixed points, and where
the scaled value is `q + 1/2` goes to the even neighbour or to `q + 1` by the tie rule; the three listed
ties scale to 62.5, 12.5 and 50.5. -/
def Obligations.SymProperties : Prop :=
  (∀ (away : Bool) (v : AxisWord), sym away v ≤ 100) ∧
  (∀ (away : Bool) (a b : AxisWord), isNaN64 a = false → isNaN64 b = false →
    extLe (value64 a) (value64 b) = true → sym away a ≤ sym away b) ∧
  (∀ away : Bool, sym away 0x0000000000000000#64 = 50 ∧ sym away 0x3FF0000000000000#64 = 100 ∧
    sym away 0xBFF0000000000000#64 = 0) ∧
  (∀ (v : AxisWord) (q : Nat), isNaN64 v = false → q < 100 →
    value64 (symScaled v) = .fin ((2 * (q : Int) + 1) * 2 ^ 1073) →
    sym false v = (if q % 2 = 0 then q else q + 1) ∧ sym true v = q + 1) ∧
  (symScaled 0x3FD0000000000000#64 = 0x404F400000000000#64 ∧
   symScaled 0xBFE8000000000000#64 = 0x4029000000000000#64 ∧
   symScaled 0x3F847AE147AE147B#64 = 0x4049400000000000#64) ∧
  (sym false 0x3FD0000000000000#64 = 62 ∧ sym true 0x3FD0000000000000#64 = 63 ∧
   sym false 0xBFE8000000000000#64 = 12 ∧ sym true 0xBFE8000000000000#64 = 13 ∧
   sym false 0x3F847AE147AE147B#64 = 50 ∧ sym true 0x3F847AE147AE147B#64 = 51)

/-- R121: HALF is in 0..100, monotone non-increasing, positive only for a negative value, and follows the
tie rule at the three listed ties, whose products are 0.5, 12.5 and 99.5. -/
def Obligations.HalfProperties : Prop :=
  (∀ (away : Bool) (v : AxisWord), half away v ≤ 100) ∧
  (∀ (away : Bool) (a b : AxisWord), isNaN64 a = false → isNaN64 b = false →
    extLe (value64 a) (value64 b) = true → half away b ≤ half away a) ∧
  (∀ (away : Bool) (v : AxisWord), 0 < half away v →
    isNaN64 v = false ∧ extLe (.fin 0) (value64 v) = false) ∧
  (fmul64 (fneg64 0xBF747AE147AE147B#64) fHundred = 0x3FE0000000000000#64 ∧
   fmul64 (fneg64 0xBFC0000000000000#64) fHundred = 0x4029000000000000#64 ∧
   fmul64 (fneg64 0xBFEFD70A3D70A3D7#64) fHundred = 0x4058E00000000000#64) ∧
  (half false 0xBF747AE147AE147B#64 = 0 ∧ half true 0xBF747AE147AE147B#64 = 1 ∧
   half false 0xBFC0000000000000#64 = 12 ∧ half true 0xBFC0000000000000#64 = 13 ∧
   half false 0xBFEFD70A3D70A3D7#64 = 100 ∧ half true 0xBFEFD70A3D70A3D7#64 = 100)

/-- Corner cases of R116, R118 and R120: any NaN maps to the rest value, any word of value 0 or more maps
to 0 under HALF, and the infinities map to the clamp bounds. -/
def Obligations.MapperCorners : Prop :=
  (∀ (away : Bool) (v : AxisWord), isNaN64 v = true →
    sym away v = 50 ∧ symInv away v = 50 ∧ half away v = 0) ∧
  (∀ (away : Bool) (v : AxisWord), isNaN64 v = false → extLe (.fin 0) (value64 v) = true →
    half away v = 0) ∧
  (∀ away : Bool, sym away 0x7FF0000000000000#64 = 100 ∧ sym away 0xFFF0000000000000#64 = 0 ∧
    half away 0xFFF0000000000000#64 = 100)

/-! ### Snapshot unit (42_snapshot.md) -/

/-- R146 with R154 and R155: SAMPLE outside IDLE is BadState. In IDLE it drains the queue; with the controller present it captures the
whole live state; without, it clears `SNAP_VALID`, keeps the snapshot registers and reports
DeviceDisconnected or DeviceNotFound, logged. -/
def Obligations.SampleEffect : Prop :=
  decodeHostWord 0x1000#16 = .ok .sample ∧
  (∀ s : State, s.loop = 1#2 ∨ s.loop = 2#2 →
    exec .sample s = .next { s with result := 0x13#8, log := s.log ++ [⟨0x13#8, 0x10#8⟩] }) ∧
  (∀ s d : State, s.loop = 0#2 → d = drain s → d.devPresent = true →
    exec .sample s = .next { d with
      snapAx := d.liveAx, snapBtn := d.liveBtn, snapHat := d.liveHat,
      snapValid := true, snapEver := true, result := 0x00#8 }) ∧
  (∀ s d : State, s.loop = 0#2 → d = drain s → d.devPresent = false → d.devLost = true →
    exec .sample s = .next { d with
      snapValid := false, result := 0x02#8, log := s.log ++ [⟨0x02#8, 0x10#8⟩] }) ∧
  (∀ s d : State, s.loop = 0#2 → d = drain s → d.devPresent = false → d.devLost = false →
    exec .sample s = .next { d with
      snapValid := false, result := 0x01#8, log := s.log ++ [⟨0x01#8, 0x10#8⟩] })

/-- What a drain leaves unchanged: everything but the live registers, the device bits it may clear and
set, and the queue (42_snapshot.md R147 to R153). -/
def Obligations.DrainFrame : Prop :=
  ∀ s : State, drain s = { s with
    liveAx := (drain s).liveAx, liveBtn := (drain s).liveBtn, liveHat := (drain s).liveHat,
    devPresent := (drain s).devPresent, devLost := (drain s).devLost, evq := [] }

/-- R148: AXIS_MOTION writes the word unchanged into its live axis, if the device is present and has that
axis; otherwise nothing changes. -/
def Obligations.AxisMotionEffect : Prop :=
  (∀ (s : State) (index : Byte) (v : BitVec 64), s.devPresent = true → index.toNat < s.nax.toNat →
    exec (.axisMotion index v) s = .next { s with liveAx := s.liveAx.set index.toNat v }) ∧
  (∀ (s : State) (index : Byte) (v : BitVec 64), s.devPresent = false ∨ s.nax.toNat ≤ index.toNat →
    exec (.axisMotion index v) s = .next s)

/-- R149, R150: BUTTON_DOWN writes 1 and BUTTON_UP 0 into its live button, if the device is present and
has that button; otherwise nothing changes; `VALUE` never matters. A press and a release of one button
leave the state of the later one. -/
def Obligations.ButtonEffects : Prop :=
  (∀ (s : State) (index : Byte) (v : BitVec 64), s.devPresent = true → index.toNat < s.nbtn.toNat →
    exec (.buttonDown index v) s = .next { s with liveBtn := s.liveBtn.set index.toNat true } ∧
    exec (.buttonUp index v) s = .next { s with liveBtn := s.liveBtn.set index.toNat false }) ∧
  (∀ (s : State) (index : Byte) (v : BitVec 64), s.devPresent = false ∨ s.nbtn.toNat ≤ index.toNat →
    exec (.buttonDown index v) s = .next s ∧ exec (.buttonUp index v) s = .next s) ∧
  (∀ (s t u : State) (index : Byte) (v v' : BitVec 64),
    exec (.buttonDown index v) s = .next t → exec (.buttonUp index v') t = .next u →
    exec (.buttonUp index v') s = .next u)

/-- R151: HAT_MOTION stores the low four bits of a code 0 to 8 into its live hat, if the device is
present and has that hat; otherwise, and for a code above 8, nothing changes. -/
def Obligations.HatMotionEffect : Prop :=
  (∀ (s : State) (index : Byte) (c : BitVec 64),
    s.devPresent = true → index.toNat < s.nhat.toNat → c.toNat ≤ 8 →
    exec (.hatMotion index c) s = .next { s with
      liveHat := s.liveHat.set index.toNat (BitVec.ofNat 4 c.toNat) }) ∧
  (∀ (s : State) (index : Byte) (c : BitVec 64),
    s.devPresent = false ∨ s.nhat.toNat ≤ index.toNat ∨ 8 < c.toNat →
    exec (.hatMotion index c) s = .next s)

/-- R152: DEVICE_REMOVED loses a present device, and every later record of the drain changes nothing. -/
def Obligations.DeviceRemovedEffect : Prop :=
  (∀ (s : State) (index : Byte) (v : BitVec 64), s.devPresent = true →
    exec (.deviceRemoved index v) s = .next { s with devPresent := false, devLost := true }) ∧
  (∀ (s : State) (index : Byte) (v : BitVec 64), s.devPresent = false →
    exec (.deviceRemoved index v) s = .next s) ∧
  (∀ s : State, s.devPresent = false → drain s = { s with evq := [] })

/-- R153: a record of an unassigned type is drained with no effect. -/
def Obligations.UnassignedEventHasNoEffect : Prop :=
  ∀ (s : State) (e : EventWord), etypeField e = 0x00#8 ∨ 0x06 ≤ (etypeField e).toNat →
    applyRecord s e = s ∧ (s.evq = [e] → drain s = { s with evq := [] })

/-- The snapshot registers and bits are written by SAMPLE and TICK only, the live registers by the
axis, button and hat records and by SAMPLE and TICK, which drain them, only (10_state.md R28, R30, R31). -/
def Obligations.SnapshotWrittenOnlyBySampling : Prop :=
  ∀ (i : Instr) (s t : State), i ≠ .sample → i ≠ .tick → exec i s = .next t →
    (t.snapAx = s.snapAx ∧ t.snapBtn = s.snapBtn ∧ t.snapHat = s.snapHat ∧
      t.snapValid = s.snapValid ∧ t.snapEver = s.snapEver) ∧
    ((∀ a v, i ≠ .axisMotion a v) → t.liveAx = s.liveAx) ∧
    ((∀ a v, i ≠ .buttonDown a v ∧ i ≠ .buttonUp a v) → t.liveBtn = s.liveBtn) ∧
    ((∀ a v, i ≠ .hatMotion a v) → t.liveHat = s.liveHat)

/-- R157: the display record is FRESH with a valid snapshot, STALE with the last-known one, NONE before
any; it carries the counts and the elements below them; the tags are 0, 1, 2; nothing else is written. -/
def Obligations.DisplayRecordByStatus : Prop :=
  (∀ s : State, s.snapValid = true →
    display s = { s with disp := s.disp ++ [.fresh (snapshotView s)] }) ∧
  (∀ s : State, s.snapValid = false → s.snapEver = true →
    display s = { s with disp := s.disp ++ [.stale (snapshotView s)] }) ∧
  (∀ s : State, s.snapValid = false → s.snapEver = false →
    display s = { s with disp := s.disp ++ [.none] }) ∧
  (∀ s : State, snapshotView s =
    ⟨s.nax, s.nbtn, s.nhat, s.snapAx.take s.nax.toNat, s.snapBtn.take s.nbtn.toNat,
      s.snapHat.take s.nhat.toNat⟩) ∧
  (∀ v : SnapshotView, displayTag (.fresh v) = 0#2 ∧ displayTag (.stale v) = 1#2) ∧
  displayTag .none = 2#2

/-! ### Frame packer (43_frame_packer.md) -/

/-- R170: ENCODE outside IDLE is BadState. In IDLE: the 17 cells, in order, from the snapshot, the length and OK; a null snapshot
or a controller with too few inputs leaves the buffer and no pending frame. -/
def Obligations.EncodeEffect : Prop :=
  decodeHostWord 0x1100#16 = .ok .encode ∧
  (∀ s : State, s.loop = 1#2 ∨ s.loop = 2#2 →
    exec .encode s = .next { s with result := 0x13#8, log := s.log ++ [⟨0x13#8, 0x11#8⟩] }) ∧
  (∀ s : State, s.loop = 0#2 → s.snapValid = false →
    exec .encode s = .next { s with flen := 0#5, result := 0x10#8 }) ∧
  (∀ s : State, s.loop = 0#2 → s.snapValid = true → s.nax.toNat < 5 ∨ s.nbtn.toNat < 10 →
    exec .encode s = .next { s with
      flen := 0#5, result := 0x06#8, log := s.log ++ [⟨0x06#8, 0x11#8⟩] }) ∧
  (∀ (s : State) (ax : Nat → AxisWord) (btn : Nat → Byte),
    (∀ i, ax i = s.snapAx.getD i 0#64) → (∀ b, btn b = if s.snapBtn.getD b false then 1#8 else 0#8) →
    s.loop = 0#2 → s.snapValid = true → 5 ≤ s.nax.toNat → 10 ≤ s.nbtn.toNat →
    exec .encode s = .next { s with
      fbuf := #v[250#8,
        BitVec.ofNat 8 (half s.roundTie (ax 1)), BitVec.ofNat 8 (sym s.roundTie (ax 0)),
        BitVec.ofNat 8 (symInv s.roundTie (ax 4)), BitVec.ofNat 8 (sym s.roundTie (ax 3)),
        BitVec.ofNat 8 (sym s.roundTie (ax 2)),
        btn 0, btn 1, btn 2, btn 3, btn 4, btn 5, btn 6, btn 7, btn 8, btn 9, 0#8],
      flen := 17#5, result := 0x00#8 })

/-- R172: after an ENCODE with result OK the frame is 17 bytes headed by 250 and closed by 0, its fields
are in their ranges and none is 250 or 251; and ENCODE is a function of the snapshot registers, the
counts and `ROUND_TIE` only. -/
def Obligations.EncodeProperties : Prop :=
  (∀ s t : State, s.loop = 0#2 → exec .encode s = .next t → t.result = 0x00#8 →
    t.flen = 17#5 ∧ t.fbuf[0] = 250#8 ∧ t.fbuf[16] = 0#8 ∧
    (∀ j : Fin 17, 1 ≤ j.val → j.val ≤ 5 → t.fbuf[j].toNat ≤ 100) ∧
    (∀ j : Fin 17, 6 ≤ j.val → j.val ≤ 15 → t.fbuf[j].toNat ≤ 1) ∧
    (∀ j : Fin 17, 1 ≤ j.val → t.fbuf[j] ≠ 250#8 ∧ t.fbuf[j] ≠ 251#8)) ∧
  (∀ s s' t t' : State, s.loop = 0#2 → s'.loop = 0#2 →
    s.snapAx = s'.snapAx → s.snapBtn = s'.snapBtn → s.snapValid = s'.snapValid →
    s.nax = s'.nax → s.nbtn = s'.nbtn → s.roundTie = s'.roundTie →
    exec .encode s = .next t → exec .encode s' = .next t' →
    t.result = t'.result ∧ t.flen = t'.flen ∧ (t.result = 0x00#8 → t.fbuf = t'.fbuf))

/-- R177: ENCODE_RESET outside IDLE is BadState. In IDLE it writes 251 into cell 0 and the length 1, and nothing else but OK. -/
def Obligations.EncodeResetEffect : Prop :=
  decodeHostWord 0x1200#16 = .ok .encodeReset ∧
  (∀ s : State, s.loop = 1#2 ∨ s.loop = 2#2 →
    exec .encodeReset s = .next { s with result := 0x13#8, log := s.log ++ [⟨0x13#8, 0x12#8⟩] }) ∧
  ∀ s : State, s.loop = 0#2 →
    exec .encodeReset s = .next { s with
      fbuf := s.fbuf.set 0 251#8, flen := 1#5, result := 0x00#8 }

/-- The two frame rows: a motor frame fills the 17 cells of the buffer in offset order, the reset frame
cell 0 only; each becomes the pending frame and is reported OK (30_encoding.md R101, R102; that a frame
row means its assembly in the buffer is the model's reading, log entry 8). -/
def Obligations.FrameRowsFillTheBuffer : Prop :=
  (∀ (s : State) (f : MotorFrame),
    exec (.motorFrame f) s = .next { s with
      fbuf := motorCells f, flen := 17#5, result := 0x00#8 } ∧
    (motorCells f).toList = 250#8 :: f.payload) ∧
  (∀ s : State, exec .resetFrame s = .next { s with
    fbuf := s.fbuf.set 0 251#8, flen := 1#5, result := 0x00#8 })

/-! ### Serial transmitter (44_serial_transmitter.md) -/

/-- R193: SEND outside IDLE is BadState. In IDLE: NotOpen with the port closed, NoFrame with none pending; else the first `k` bytes
of the frame reach the wire in order, for the oracle's `k`, the frame is consumed, and `k < n` is a
logged timeout. The oracle's answer is in 0..n. -/
def Obligations.SendEffect : Prop :=
  decodeHostWord 0x1300#16 = .ok .send ∧
  (∀ s : State, s.loop = 1#2 ∨ s.loop = 2#2 →
    exec .send s = .next { s with result := 0x13#8, log := s.log ++ [⟨0x13#8, 0x13#8⟩] }) ∧
  (∀ (s : State) (n : Nat), txAnswer s n ≤ n) ∧
  (∀ s : State, s.loop = 0#2 → s.port = false →
    exec .send s = .next { s with
      flen := 0#5, txResult := 0x12#8, result := 0x12#8, log := s.log ++ [⟨0x12#8, 0x13#8⟩] }) ∧
  (∀ s : State, s.loop = 0#2 → s.port = true → s.flen = 0#5 →
    exec .send s = .next { s with txResult := 0x11#8, result := 0x11#8 }) ∧
  (∀ s : State, s.loop = 0#2 → s.port = true → s.flen ≠ 0#5 →
    txAnswer s s.flen.toNat = s.flen.toNat →
    exec .send s = .next { drawTx s with
      wire := s.wire ++ s.fbuf.toList.take s.flen.toNat, flen := 0#5, txResult := 0x00#8,
      result := 0x00#8 }) ∧
  (∀ s : State, s.loop = 0#2 → s.port = true → s.flen ≠ 0#5 →
    txAnswer s s.flen.toNat < s.flen.toNat →
    exec .send s = .next { drawTx s with
      wire := s.wire ++ s.fbuf.toList.take (txAnswer s s.flen.toNat), flen := 0#5,
      txResult := 0x05#8, result := 0x05#8, log := s.log ++ [⟨0x05#8, 0x13#8⟩] })

/-- R186: OPEN outside IDLE is BadState. In IDLE: BadState with the port open, no oracle drawn; else the oracle's answer opens the
port, or is fatal: the code, the shutdown, the log record. -/
def Obligations.OpenEffect : Prop :=
  decodeHostWord 0x1400#16 = .ok .openPort ∧
  (∀ s : State, s.loop = 1#2 ∨ s.loop = 2#2 →
    exec .openPort s = .next { s with result := 0x13#8, log := s.log ++ [⟨0x13#8, 0x14#8⟩] }) ∧
  (∀ s : State, s.loop = 0#2 → s.port = true →
    exec .openPort s = .next { s with
      result := 0x13#8, log := s.log ++ [⟨0x13#8, 0x14#8⟩] }) ∧
  (∀ s : State, s.loop = 0#2 → s.port = false → openAnswer s = .ok →
    exec .openPort s = .next { drawOpen s with port := true, rxq := [], result := 0x00#8 }) ∧
  (∀ s : State, s.loop = 0#2 → s.port = false → openAnswer s = .portUnavailable →
    exec .openPort s = .next { drawOpen s with
      fatalCode := 0x03#8, loop := 2#2, tickPend := 0#16, devPresent := false, evq := [], flen := 0#5,
      port := false, rxq := [], result := 0x03#8, log := s.log ++ [⟨0x03#8, 0x14#8⟩] }) ∧
  (∀ s : State, s.loop = 0#2 → s.port = false → openAnswer s = .permissionDenied →
    exec .openPort s = .next { drawOpen s with
      fatalCode := 0x04#8, loop := 2#2, tickPend := 0#16, devPresent := false, evq := [], flen := 0#5,
      port := false, rxq := [], result := 0x04#8, log := s.log ++ [⟨0x04#8, 0x14#8⟩] })

/-- R190: CLOSE outside IDLE is BadState. In IDLE it closes the port and empties the inbound queue; it is idempotent. -/
def Obligations.CloseEffect : Prop :=
  decodeHostWord 0x1500#16 = .ok .closePort ∧
  (∀ s : State, s.loop = 1#2 ∨ s.loop = 2#2 →
    exec .closePort s = .next { s with result := 0x13#8, log := s.log ++ [⟨0x13#8, 0x15#8⟩] }) ∧
  (∀ s : State, s.loop = 0#2 →
    exec .closePort s = .next { s with port := false, rxq := [], result := 0x00#8 }) ∧
  (∀ s t : State, s.loop = 0#2 → exec .closePort s = .next t → exec .closePort t = .next t)

/-- R204: POLL_INBOUND, in every loop state: with the port open the whole queue goes to the stream and is
emptied; with it closed an empty record and NotOpen, logged. -/
def Obligations.PollInboundEffect : Prop :=
  decodeHostWord 0x0800#16 = .ok .pollInbound ∧
  (∀ s : State, s.loop ≠ 3#2 → s.port = true →
    exec .pollInbound s = .next { s with
      inb := s.inb ++ [s.rxq], rxq := [], result := 0x00#8 }) ∧
  (∀ s : State, s.loop ≠ 3#2 → s.port = false →
    exec .pollInbound s = .next { s with
      inb := s.inb ++ [[]], result := 0x12#8, log := s.log ++ [⟨0x12#8, 0x08#8⟩] })

/-- The line format (R200): a character is ten levels, a space, the eight data bits least significant
first, a mark; before, between and after characters the line rests at mark, for any number of bit times
(R203). That a rest is a whole number of bit times, and the signal a list of levels, is the model's own form,
log entry 13. Two signals of the same levels carry the same characters with the same rests, and two byte
sequences of the same levels sent with no rest are equal. -/
def Obligations.LineFormat : Prop :=
  (∀ b : Byte, (lineLevels b).length = 10 ∧ (lineLevels b)[0]? = some false ∧
    (lineLevels b)[9]? = some true ∧
    (∀ i : Nat, i < 8 → (lineLevels b)[i + 1]? = some (b.getLsbD i))) ∧
  (∀ m : Nat, lineSignal [] m = List.replicate m true) ∧
  (∀ (r m : Nat) (b : Byte) (more : List (Nat × Byte)),
    lineSignal ((r, b) :: more) m = List.replicate r true ++ lineLevels b ++ lineSignal more m) ∧
  (∀ (xs ys : List (Nat × Byte)) (m n : Nat),
    lineSignal xs m = lineSignal ys n → xs = ys ∧ m = n) ∧
  (∀ xs ys : List Byte, lineWaveform xs = lineWaveform ys → xs = ys)

/-- R207: inbound bytes never affect anything but POLL_INBOUND: another instruction gives the same next
state whatever the inbound queue holds, but for that queue. -/
def Obligations.InboundNeverAffectsOutbound : Prop :=
  ∀ (i : Instr) (s t : State) (q : List Byte), i ≠ .pollInbound → exec i s = .next t →
    ∃ q' : List Byte, exec i { s with rxq := q } = .next { t with rxq := q' }

/-! ### Legality and codes -/

/-- R218: EXEC of a host word in a loop state that is held: a reserved `OP` or TICK's is IllegalCommand,
then a nonzero `ARG` of a command that takes none is, then a loop state outside the command's own is
BadState, each logged with `OP` and with no other effect; any other word runs the command it encodes. -/
def Obligations.ExecDecodesThenChecksState : Prop :=
  ∀ (s : State) (w : CommandWord), s.loop ≠ 3#2 →
    let op := (opField w).toNat
    let fails := fun code : Byte => execWord w s = .next { s with
      result := code, log := s.log ++ [⟨code, opField w⟩] }
    let listed := op ≤ 0x03 ∨ (0x08 ≤ op ∧ op ≤ 0x0B) ∨ (0x10 ≤ op ∧ op ≤ 0x15)
    let mapper := 0x09 ≤ op ∧ op ≤ 0x0B
    let legal := s.loop = 0#2 ∧ op ≠ 0x03 ∨ s.loop = 1#2 ∧ op ≠ 0x01 ∧ op < 0x10 ∨
      s.loop = 2#2 ∧ op ≠ 0x01 ∧ op ≠ 0x03 ∧ op < 0x10
    (¬listed → fails 0x14#8) ∧
    (listed → ¬mapper → argField w ≠ 0#8 → fails 0x14#8) ∧
    (listed → mapper ∨ argField w = 0#8 → ¬legal → fails 0x13#8) ∧
    (listed → mapper ∨ argField w = 0#8 → legal →
      ∃ i : Instr, encode i = .command w ∧ execWord w s = exec i s)

/-- In the loop state that is never held, every host word that decodes to a command stops with the fault
93_implementation_defined.md item 21 asks for. -/
def Obligations.LoopThreeIsAFault : Prop :=
  ∀ (s : State) (w : CommandWord) (i : Instr), s.loop = 3#2 → decodeHostWord w = .ok i →
    execWord w s = .fault .loopReserved

/-- R247: the codes each command and action can produce in a state the invariant allows. -/
def Obligations.ResultCodesPerCommand : Prop :=
  ∀ (s t : State) (i : Instr), Inv s → exec i s = .next t →
    (i = .nop → t.result = 0x00#8) ∧
    (i = .start → s.loop = 0#2 → t.result ∈ [0x00#8, 0x03#8, 0x04#8]) ∧
    (i = .quit → t.result = 0x00#8) ∧
    (i = .resetReq → s.loop = 1#2 → t.result ∈ [0x00#8, 0x05#8]) ∧
    (i = .tick → s.loop = 1#2 → t.result ∈ [0x00#8, 0x01#8, 0x02#8, 0x06#8, 0x05#8]) ∧
    (i = .pollInbound → t.result ∈ [0x00#8, 0x12#8]) ∧
    (∀ a, i = .mapSym a ∨ i = .mapSymInv a ∨ i = .mapHalf a → t.result ∈ [0x00#8, 0x15#8]) ∧
    (i = .sample → s.loop = 0#2 → t.result ∈ [0x00#8, 0x01#8, 0x02#8]) ∧
    (i = .encode → s.loop = 0#2 → t.result ∈ [0x00#8, 0x10#8, 0x06#8]) ∧
    (i = .encodeReset → s.loop = 0#2 → t.result = 0x00#8) ∧
    (i = .send → s.loop = 0#2 → t.result ∈ [0x00#8, 0x05#8, 0x11#8, 0x12#8]) ∧
    (i = .openPort → s.loop = 0#2 → t.result ∈ [0x00#8, 0x03#8, 0x04#8, 0x13#8]) ∧
    (i = .closePort → s.loop = 0#2 → t.result = 0x00#8)

/-- R263: a TICK, a RESET_REQ and a START each produce at most one LOG record. -/
def Obligations.AtMostOneLogRecord : Prop :=
  ∀ (i : Instr) (s t : State), i = .tick ∨ i = .resetReq ∨ i = .start → exec i s = .next t →
    ∃ r : List LogRecord, t.log = s.log ++ r ∧ r.length ≤ 1

/-- R233: no tick changes `LOOP`, whatever code it produces; every tick completes. -/
def Obligations.TickNeverHaltsTheLoop : Prop :=
  ∀ s : State, ∃ t : State, exec .tick s = .next t ∧ t.loop = s.loop

/-! ### The environment's agents and the register space -/

/-- R237: TIMER is enabled while TICKING; its step adds one to the backlog, up to `P_TICK_PEND_MAX`, where the tick is
lost. -/
def Obligations.TimerStepCountsTicks : Prop :=
  (∀ s : State, agentEnabled .timer s = true ↔ s.loop = 1#2) ∧
  (∀ (s : State) (more : List AgentStep), s.agenda = .timer :: more → s.loop = 1#2 →
    s.tickPend.toNat < s.params.tickPendMax →
    step s = .next { s with agenda := more, tickPend := BitVec.ofNat 16 (s.tickPend.toNat + 1) }) ∧
  (∀ (s : State) (more : List AgentStep), s.agenda = .timer :: more → s.loop = 1#2 →
    s.params.tickPendMax ≤ s.tickPend.toNat →
    step s = .next { s with agenda := more })

/-- R141: a DEVICE step while attached and not in SHUTDOWN: a removal is always queued and is the last, a
full queue loses any other record, and so at most one removal is ever queued. -/
def Obligations.DeviceStepQueuesRecords : Prop :=
  (∀ (s : State) (e : EventWord),
    agentEnabled (.device e) s = true ↔ s.devAttached = true ∧ s.loop ≠ 2#2) ∧
  (∀ p : Params, (State.resetWith p).devAttached = (State.resetWith p).devFound) ∧
  (∀ (s : State) (more : List AgentStep) (e : EventWord), s.agenda = .device e :: more →
    s.devAttached = true → s.loop ≠ 2#2 → etypeField e = 0x05#8 →
    step s = .next { s with agenda := more, evq := s.evq ++ [e], devAttached := false }) ∧
  (∀ (s : State) (more : List AgentStep) (e : EventWord), s.agenda = .device e :: more →
    s.devAttached = true → s.loop ≠ 2#2 → etypeField e ≠ 0x05#8 → s.evq.length < s.params.evqCap →
    step s = .next { s with agenda := more, evq := s.evq ++ [e] }) ∧
  (∀ (s : State) (more : List AgentStep) (e : EventWord), s.agenda = .device e :: more →
    s.devAttached = true → s.loop ≠ 2#2 → etypeField e ≠ 0x05#8 → s.params.evqCap ≤ s.evq.length →
    step s = .next { s with agenda := more }) ∧
  (∀ s : State, Inv s → (removals s.evq).length ≤ 1 ∧ s.evq.length ≤ s.params.evqCap + 1)

/-- R206: LINE is enabled while the port is open, and its step queues the byte, or loses it when the queue is full. -/
def Obligations.LineStepQueuesBytes : Prop :=
  (∀ (s : State) (b : Byte), agentEnabled (.line b) s = true ↔ s.port = true) ∧
  (∀ (s : State) (more : List AgentStep) (b : Byte), s.agenda = .line b :: more → s.port = true →
    s.rxq.length < s.params.rxCap →
    step s = .next { s with agenda := more, rxq := s.rxq ++ [b] }) ∧
  (∀ (s : State) (more : List AgentStep) (b : Byte), s.agenda = .line b :: more → s.port = true →
    s.params.rxCap ≤ s.rxq.length → step s = .next { s with agenda := more })

/-- The HOST appends a word while the queue is not full; when it is full the host waits, SEQ steps, and
the word is neither taken nor lost (45_sequencer.md R215, R244; that the agenda keeps the waiting word is
the model's form, log entry 3). -/
def Obligations.HostEnqueueOrWait : Prop :=
  (∀ (s : State) (more : List AgentStep) (w : CommandWord), s.agenda = .enqueue w :: more →
    s.hcq.length < s.params.hcqCap →
    step s = .next { s with agenda := more, hcq := s.hcq ++ [w] }) ∧
  (∀ (s : State) (more : List AgentStep) (w : CommandWord), s.agenda = .enqueue w :: more →
    s.params.hcqCap ≤ s.hcq.length → step s = seqStep s) ∧
  (∀ s t : State, seqStep s = .next t → t.agenda = s.agenda)

/-- An agent that is not enabled has no step: nothing of the block changes (00_scope.md R8). Which agent
steps next is the head of the agenda, or SEQ when the agenda is empty: the model's form, log entry 3. -/
def Obligations.DisabledAgentChangesNothing : Prop :=
  (∀ s : State, s.agenda = [] → step s = seqStep s) ∧
  (∀ (s : State) (more : List AgentStep), s.agenda = .seq :: more →
    step s = seqStep { s with agenda := more }) ∧
  (∀ s : State, agentEnabled .seq s = false → seqStep s = .next s) ∧
  (∀ s : State, s.loop ≠ 1#2 → agentStep .timer s = .next s) ∧
  (∀ (s : State) (e : EventWord), s.devAttached = false ∨ s.loop = 2#2 →
    agentStep (.device e) s = .next s) ∧
  (∀ (s : State) (b : Byte), s.port = false → agentStep (.line b) s = .next s)

/-- R61: a register read returns the register at the address and changes no state of the block; the
answer is kept in the model's own field `reads` (log entry 5). -/
def Obligations.RegisterReadHasNoSideEffect : Prop :=
  ∀ (s : State) (more : List AgentStep) (a : Byte), s.agenda = .read a :: more →
    step s = .next { s with agenda := more, reads := s.reads ++ [⟨a, regRead s a⟩] }

/-- R62: the register map of the read space, address by address. A queue length is said where its 64 bits
hold it; a longer one reads as a free value (log entry 15). -/
def Obligations.RegisterMap : Prop :=
  ∀ s : State,
    regRead s 0x00#8 = s.loop.setWidth 64 ∧
    regRead s 0x01#8 = (if s.port then 1#64 else 0#64) ∧
    (regRead s 0x02#8).toNat =
      s.devPresent.toNat + 2 * s.devLost.toNat + 4 * s.devFound.toNat ∧
    regRead s 0x03#8 = s.nax.setWidth 64 ∧ regRead s 0x04#8 = s.nbtn.setWidth 64 ∧
    regRead s 0x05#8 = s.nhat.setWidth 64 ∧
    (regRead s 0x06#8).toNat = s.snapValid.toNat + 2 * s.snapEver.toNat ∧
    regRead s 0x07#8 = s.flen.setWidth 64 ∧ regRead s 0x08#8 = s.result.setWidth 64 ∧
    regRead s 0x09#8 = s.txResult.setWidth 64 ∧ regRead s 0x0A#8 = s.fatalCode.setWidth 64 ∧
    regRead s 0x0B#8 = s.axout.setWidth 64 ∧ regRead s 0x0C#8 = s.tickPend.setWidth 64 ∧
    (s.evq.length < 2 ^ 64 → (regRead s 0x0D#8).toNat = s.evq.length) ∧
    (s.rxq.length < 2 ^ 64 → (regRead s 0x0E#8).toNat = s.rxq.length) ∧
    (s.hcq.length < 2 ^ 64 → (regRead s 0x0F#8).toNat = s.hcq.length) ∧
    regRead s 0x10#8 = s.baud.setWidth 64 ∧ regRead s 0x11#8 = s.wtoMs.setWidth 64 ∧
    regRead s 0x12#8 = s.periodMs.setWidth 64 ∧
    regRead s 0x13#8 = (if s.roundTie then 1#64 else 0#64) ∧
    (∀ a : Byte, (0x14 ≤ a.toNat ∧ a.toNat ≤ 0x1F) ∨ (0x31 ≤ a.toNat ∧ a.toNat ≤ 0x3F) →
      regRead s a = 0#64) ∧
    (∀ j : Fin 17, regRead s (BitVec.ofNat 8 (0x20 + j.val)) = s.fbuf[j].setWidth 64) ∧
    (∀ i : Nat, i < 64 → regRead s (BitVec.ofNat 8 (0x40 + i)) =
      if i < s.params.maxAx then s.snapAx.getD i 0#64 else 0#64) ∧
    (∀ i : Nat, i < 64 → regRead s (BitVec.ofNat 8 (0x80 + i)) =
      if i < s.params.maxBtn then (if s.snapBtn.getD i false then 1#64 else 0#64) else 0#64) ∧
    (∀ i : Nat, i < 64 → regRead s (BitVec.ofNat 8 (0xC0 + i)) =
      if i < s.params.maxHat then (s.snapHat.getD i 0#4).setWidth 64 else 0#64)

/-! ### Reset and the whole machine -/

/-- R275: every piece of state after reset with legal parameters, as the table gives it. `BAUD`, `WTO_MS`
and `PERIOD_MS` are said for a parameter their 32, 16 and 16 bits hold (10_state.md R40); a wider one loads
a free value (log entry 2). -/
def Obligations.ResetValues : Prop :=
  ∀ (p : Params) (r : State), p.Legal → r = State.resetWith p →
    (r.loop = 0#2 ∧ r.tickPend = 0#16 ∧ r.hcq = [] ∧ r.result = 0x00#8 ∧ r.fatalCode = 0x00#8) ∧
    (r.devFound = true ↔ ∃ na nb nh, p.deviceAtReset = .present na nb nh) ∧
    (r.devPresent = r.devFound ∧ r.devLost = false ∧ r.devAttached = r.devFound) ∧
    (∀ na nb nh, p.deviceAtReset = .present na nb nh →
      r.nax.toNat = min na p.maxAx ∧ r.nbtn.toNat = min nb p.maxBtn ∧ r.nhat.toNat = min nh p.maxHat) ∧
    (p.deviceAtReset = .absent → r.nax = 0#8 ∧ r.nbtn = 0#8 ∧ r.nhat = 0#8) ∧
    (r.liveAx = List.replicate p.maxAx 0#64 ∧ r.liveBtn = List.replicate p.maxBtn false ∧
      r.liveHat = List.replicate p.maxHat 0#4 ∧ r.evq = []) ∧
    (r.snapValid = false ∧ r.snapEver = false ∧ r.snapAx = List.replicate p.maxAx 0#64 ∧
      r.snapBtn = List.replicate p.maxBtn false ∧ r.snapHat = List.replicate p.maxHat 0#4) ∧
    (r.axout = 0x00#8 ∧ r.flen = 0#5 ∧ (∀ j : Fin 17, r.fbuf[j] = 0x00#8) ∧ r.port = false ∧
      r.txResult = 0x00#8 ∧ r.rxq = []) ∧
    ((p.baud < 2 ^ 32 → r.baud.toNat = p.baud) ∧ (p.wtoMs < 2 ^ 16 → r.wtoMs.toNat = p.wtoMs) ∧
      (p.periodMs < 2 ^ 16 → r.periodMs.toNat = p.periodMs) ∧
      (r.roundTie = true ↔ p.roundTie = .halfAway)) ∧
    (r.wire = [] ∧ r.disp = [] ∧ r.log = [] ∧ r.inb = [])

/-- The invariant holds right after reset, for all legal parameters and any choices of the environment
(10_state.md R43). -/
def Obligations.ResetEstablishesInv : Prop :=
  ∀ (p : Params) (agenda : List AgentStep) (opens : List OpenAnswer) (txs : List Nat),
    p.Legal → Inv (resetIn p agenda opens txs)

/-- Every step of every agent keeps the invariant (10_state.md R43), from every state that has it, for
every agenda and every oracle answer. -/
def Obligations.StepKeepsInv : Prop :=
  ∀ s t : State, Inv s → step s = .next t → Inv t

/-- From a state with the invariant no step stops: no fault, no refusal (60_exceptions.md R253: every
error is an ordinary completion). -/
def Obligations.StepNeverStops : Prop :=
  ∀ s : State, Inv s → ∃ t : State, step s = .next t

/-- R243: the transitions of `LOOP`, complete: each change and the command that makes it. -/
def Obligations.LoopTransitions : Prop :=
  ∀ s t : State, step s = .next t → t.loop ≠ s.loop →
    ∃ (w : CommandWord) (rest : List CommandWord), s.hcq = w :: rest ∧
      ((s.loop = 0#2 ∧ t.loop = 1#2 ∧ decodeHostWord w = .ok .start ∧ t.port = true) ∨
       (s.loop = 0#2 ∧ t.loop = 2#2 ∧ t.fatalCode ≠ 0x00#8 ∧
         (decodeHostWord w = .ok .start ∨ decodeHostWord w = .ok .openPort)) ∨
       ((s.loop = 0#2 ∨ s.loop = 1#2) ∧ t.loop = 2#2 ∧ decodeHostWord w = .ok .quit))

/-- Once in SHUTDOWN the loop stays there and neither the wire nor the display ever grows again
(70_reset_and_hazards.md R282, R295). -/
def Obligations.ShutdownIsTerminal : Prop :=
  ∀ s t : State, Inv s → s.loop = 2#2 → step s = .next t →
    t.loop = 2#2 ∧ t.wire = s.wire ∧ t.disp = s.disp

/-- The output streams only grow (00_scope.md R13; 10_state.md R41). -/
def Obligations.StreamsAreAppendOnly : Prop :=
  ∀ s t : State, step s = .next t →
    s.wire <+: t.wire ∧ s.disp <+: t.disp ∧ s.log <+: t.log ∧ s.inb <+: t.inb

/-- The parameters, the configuration registers, the counts and `DEV_FOUND` never change after reset
(00_scope.md R10; 10_state.md R27, R40). -/
def Obligations.ConfigurationIsConstant : Prop :=
  ∀ s t : State, step s = .next t →
    t.params = s.params ∧ t.baud = s.baud ∧ t.wtoMs = s.wtoMs ∧ t.periodMs = s.periodMs ∧
    t.roundTie = s.roundTie ∧ t.nax = s.nax ∧ t.nbtn = s.nbtn ∧ t.nhat = s.nhat ∧
    t.devFound = s.devFound

/-- No step clears a lost or released device, and none changes a fatal code once set
(70_reset_and_hazards.md R276; 10_state.md R26). -/
def Obligations.OnlyResetRestoresTheDevice : Prop :=
  ∀ s t : State, Inv s → step s = .next t →
    (s.devLost = true → t.devLost = true) ∧ (s.devPresent = false → t.devPresent = false) ∧
    (s.devAttached = false → t.devAttached = false) ∧
    (s.fatalCode ≠ 0x00#8 → t.fatalCode = s.fatalCode)

/-- Ticks keep coming: in an admissible run that stays in TICKING with no host command pending, SEQ runs
a TICK again and again (45_sequencer.md R240). That fairness is a predicate on infinite runs is the model's
form (log entry 11). -/
def Obligations.TicksKeepComing : Prop :=
  ∀ (σ : Nat → State) (a : Nat → Option AgentStep), Admissible σ a → (σ 0).params.Legal →
    (∀ n, (σ n).loop = 1#2 ∧ (σ n).hcq = []) →
    ∀ n, ∃ m, n ≤ m ∧ a m = some .seq ∧ (σ m).tickPend ≠ 0#16 ∧ exec .tick (σ m) = .next (σ (m + 1))
end

