-- ==== Sys2Proof/Laws/State.lean ====
section
/-! SUPPORT. For each plain update of Machine/Ops.lean, what each field of the state is after it: one
lemma a field, true by rfl, so that no proof unfolds a record update. -/

namespace Sys2Proof.Machine

section
variable (s : State)

/-! done -/

@[simp] theorem done_params (c : ResultCode) : (done c s).params = s.params := rfl
@[simp] theorem done_loop (c : ResultCode) : (done c s).loop = s.loop := rfl
@[simp] theorem done_tickPend (c : ResultCode) : (done c s).tickPend = s.tickPend := rfl
@[simp] theorem done_hcq (c : ResultCode) : (done c s).hcq = s.hcq := rfl
@[simp] theorem done_result (c : ResultCode) : (done c s).result = codeByte c := rfl
@[simp] theorem done_fatalCode (c : ResultCode) : (done c s).fatalCode = s.fatalCode := rfl
@[simp] theorem done_devFound (c : ResultCode) : (done c s).devFound = s.devFound := rfl
@[simp] theorem done_devPresent (c : ResultCode) : (done c s).devPresent = s.devPresent := rfl
@[simp] theorem done_devLost (c : ResultCode) : (done c s).devLost = s.devLost := rfl
@[simp] theorem done_nax (c : ResultCode) : (done c s).nax = s.nax := rfl
@[simp] theorem done_nbtn (c : ResultCode) : (done c s).nbtn = s.nbtn := rfl
@[simp] theorem done_nhat (c : ResultCode) : (done c s).nhat = s.nhat := rfl
@[simp] theorem done_liveAx (c : ResultCode) : (done c s).liveAx = s.liveAx := rfl
@[simp] theorem done_liveBtn (c : ResultCode) : (done c s).liveBtn = s.liveBtn := rfl
@[simp] theorem done_liveHat (c : ResultCode) : (done c s).liveHat = s.liveHat := rfl
@[simp] theorem done_evq (c : ResultCode) : (done c s).evq = s.evq := rfl
@[simp] theorem done_snapValid (c : ResultCode) : (done c s).snapValid = s.snapValid := rfl
@[simp] theorem done_snapEver (c : ResultCode) : (done c s).snapEver = s.snapEver := rfl
@[simp] theorem done_snapAx (c : ResultCode) : (done c s).snapAx = s.snapAx := rfl
@[simp] theorem done_snapBtn (c : ResultCode) : (done c s).snapBtn = s.snapBtn := rfl
@[simp] theorem done_snapHat (c : ResultCode) : (done c s).snapHat = s.snapHat := rfl
@[simp] theorem done_axout (c : ResultCode) : (done c s).axout = s.axout := rfl
@[simp] theorem done_flen (c : ResultCode) : (done c s).flen = s.flen := rfl
@[simp] theorem done_fbuf (c : ResultCode) : (done c s).fbuf = s.fbuf := rfl
@[simp] theorem done_port (c : ResultCode) : (done c s).port = s.port := rfl
@[simp] theorem done_txResult (c : ResultCode) : (done c s).txResult = s.txResult := rfl
@[simp] theorem done_rxq (c : ResultCode) : (done c s).rxq = s.rxq := rfl
@[simp] theorem done_baud (c : ResultCode) : (done c s).baud = s.baud := rfl
@[simp] theorem done_wtoMs (c : ResultCode) : (done c s).wtoMs = s.wtoMs := rfl
@[simp] theorem done_periodMs (c : ResultCode) : (done c s).periodMs = s.periodMs := rfl
@[simp] theorem done_roundTie (c : ResultCode) : (done c s).roundTie = s.roundTie := rfl
@[simp] theorem done_wire (c : ResultCode) : (done c s).wire = s.wire := rfl
@[simp] theorem done_disp (c : ResultCode) : (done c s).disp = s.disp := rfl
@[simp] theorem done_log (c : ResultCode) : (done c s).log = s.log := rfl
@[simp] theorem done_inb (c : ResultCode) : (done c s).inb = s.inb := rfl
@[simp] theorem done_devAttached (c : ResultCode) : (done c s).devAttached = s.devAttached := rfl
@[simp] theorem done_agenda (c : ResultCode) : (done c s).agenda = s.agenda := rfl
@[simp] theorem done_openScript (c : ResultCode) : (done c s).openScript = s.openScript := rfl
@[simp] theorem done_openDraws (c : ResultCode) : (done c s).openDraws = s.openDraws := rfl
@[simp] theorem done_txScript (c : ResultCode) : (done c s).txScript = s.txScript := rfl
@[simp] theorem done_txDraws (c : ResultCode) : (done c s).txDraws = s.txDraws := rfl
@[simp] theorem done_reads (c : ResultCode) : (done c s).reads = s.reads := rfl

/-! emitLog -/

@[simp] theorem emitLog_params (c : ResultCode) (op : Byte) : (emitLog c op s).params = s.params := rfl
@[simp] theorem emitLog_loop (c : ResultCode) (op : Byte) : (emitLog c op s).loop = s.loop := rfl
@[simp] theorem emitLog_tickPend (c : ResultCode) (op : Byte) : (emitLog c op s).tickPend = s.tickPend := rfl
@[simp] theorem emitLog_hcq (c : ResultCode) (op : Byte) : (emitLog c op s).hcq = s.hcq := rfl
@[simp] theorem emitLog_result (c : ResultCode) (op : Byte) : (emitLog c op s).result = s.result := rfl
@[simp] theorem emitLog_fatalCode (c : ResultCode) (op : Byte) : (emitLog c op s).fatalCode = s.fatalCode := rfl
@[simp] theorem emitLog_devFound (c : ResultCode) (op : Byte) : (emitLog c op s).devFound = s.devFound := rfl
@[simp] theorem emitLog_devPresent (c : ResultCode) (op : Byte) : (emitLog c op s).devPresent = s.devPresent := rfl
@[simp] theorem emitLog_devLost (c : ResultCode) (op : Byte) : (emitLog c op s).devLost = s.devLost := rfl
@[simp] theorem emitLog_nax (c : ResultCode) (op : Byte) : (emitLog c op s).nax = s.nax := rfl
@[simp] theorem emitLog_nbtn (c : ResultCode) (op : Byte) : (emitLog c op s).nbtn = s.nbtn := rfl
@[simp] theorem emitLog_nhat (c : ResultCode) (op : Byte) : (emitLog c op s).nhat = s.nhat := rfl
@[simp] theorem emitLog_liveAx (c : ResultCode) (op : Byte) : (emitLog c op s).liveAx = s.liveAx := rfl
@[simp] theorem emitLog_liveBtn (c : ResultCode) (op : Byte) : (emitLog c op s).liveBtn = s.liveBtn := rfl
@[simp] theorem emitLog_liveHat (c : ResultCode) (op : Byte) : (emitLog c op s).liveHat = s.liveHat := rfl
@[simp] theorem emitLog_evq (c : ResultCode) (op : Byte) : (emitLog c op s).evq = s.evq := rfl
@[simp] theorem emitLog_snapValid (c : ResultCode) (op : Byte) : (emitLog c op s).snapValid = s.snapValid := rfl
@[simp] theorem emitLog_snapEver (c : ResultCode) (op : Byte) : (emitLog c op s).snapEver = s.snapEver := rfl
@[simp] theorem emitLog_snapAx (c : ResultCode) (op : Byte) : (emitLog c op s).snapAx = s.snapAx := rfl
@[simp] theorem emitLog_snapBtn (c : ResultCode) (op : Byte) : (emitLog c op s).snapBtn = s.snapBtn := rfl
@[simp] theorem emitLog_snapHat (c : ResultCode) (op : Byte) : (emitLog c op s).snapHat = s.snapHat := rfl
@[simp] theorem emitLog_axout (c : ResultCode) (op : Byte) : (emitLog c op s).axout = s.axout := rfl
@[simp] theorem emitLog_flen (c : ResultCode) (op : Byte) : (emitLog c op s).flen = s.flen := rfl
@[simp] theorem emitLog_fbuf (c : ResultCode) (op : Byte) : (emitLog c op s).fbuf = s.fbuf := rfl
@[simp] theorem emitLog_port (c : ResultCode) (op : Byte) : (emitLog c op s).port = s.port := rfl
@[simp] theorem emitLog_txResult (c : ResultCode) (op : Byte) : (emitLog c op s).txResult = s.txResult := rfl
@[simp] theorem emitLog_rxq (c : ResultCode) (op : Byte) : (emitLog c op s).rxq = s.rxq := rfl
@[simp] theorem emitLog_baud (c : ResultCode) (op : Byte) : (emitLog c op s).baud = s.baud := rfl
@[simp] theorem emitLog_wtoMs (c : ResultCode) (op : Byte) : (emitLog c op s).wtoMs = s.wtoMs := rfl
@[simp] theorem emitLog_periodMs (c : ResultCode) (op : Byte) : (emitLog c op s).periodMs = s.periodMs := rfl
@[simp] theorem emitLog_roundTie (c : ResultCode) (op : Byte) : (emitLog c op s).roundTie = s.roundTie := rfl
@[simp] theorem emitLog_wire (c : ResultCode) (op : Byte) : (emitLog c op s).wire = s.wire := rfl
@[simp] theorem emitLog_disp (c : ResultCode) (op : Byte) : (emitLog c op s).disp = s.disp := rfl
@[simp] theorem emitLog_log (c : ResultCode) (op : Byte) : (emitLog c op s).log = s.log ++ [{ code := codeByte c, op := op }] := rfl
@[simp] theorem emitLog_inb (c : ResultCode) (op : Byte) : (emitLog c op s).inb = s.inb := rfl
@[simp] theorem emitLog_devAttached (c : ResultCode) (op : Byte) : (emitLog c op s).devAttached = s.devAttached := rfl
@[simp] theorem emitLog_agenda (c : ResultCode) (op : Byte) : (emitLog c op s).agenda = s.agenda := rfl
@[simp] theorem emitLog_openScript (c : ResultCode) (op : Byte) : (emitLog c op s).openScript = s.openScript := rfl
@[simp] theorem emitLog_openDraws (c : ResultCode) (op : Byte) : (emitLog c op s).openDraws = s.openDraws := rfl
@[simp] theorem emitLog_txScript (c : ResultCode) (op : Byte) : (emitLog c op s).txScript = s.txScript := rfl
@[simp] theorem emitLog_txDraws (c : ResultCode) (op : Byte) : (emitLog c op s).txDraws = s.txDraws := rfl
@[simp] theorem emitLog_reads (c : ResultCode) (op : Byte) : (emitLog c op s).reads = s.reads := rfl

/-! drawOpen -/

@[simp] theorem drawOpen_params : (drawOpen s).params = s.params := rfl
@[simp] theorem drawOpen_loop : (drawOpen s).loop = s.loop := rfl
@[simp] theorem drawOpen_tickPend : (drawOpen s).tickPend = s.tickPend := rfl
@[simp] theorem drawOpen_hcq : (drawOpen s).hcq = s.hcq := rfl
@[simp] theorem drawOpen_result : (drawOpen s).result = s.result := rfl
@[simp] theorem drawOpen_fatalCode : (drawOpen s).fatalCode = s.fatalCode := rfl
@[simp] theorem drawOpen_devFound : (drawOpen s).devFound = s.devFound := rfl
@[simp] theorem drawOpen_devPresent : (drawOpen s).devPresent = s.devPresent := rfl
@[simp] theorem drawOpen_devLost : (drawOpen s).devLost = s.devLost := rfl
@[simp] theorem drawOpen_nax : (drawOpen s).nax = s.nax := rfl
@[simp] theorem drawOpen_nbtn : (drawOpen s).nbtn = s.nbtn := rfl
@[simp] theorem drawOpen_nhat : (drawOpen s).nhat = s.nhat := rfl
@[simp] theorem drawOpen_liveAx : (drawOpen s).liveAx = s.liveAx := rfl
@[simp] theorem drawOpen_liveBtn : (drawOpen s).liveBtn = s.liveBtn := rfl
@[simp] theorem drawOpen_liveHat : (drawOpen s).liveHat = s.liveHat := rfl
@[simp] theorem drawOpen_evq : (drawOpen s).evq = s.evq := rfl
@[simp] theorem drawOpen_snapValid : (drawOpen s).snapValid = s.snapValid := rfl
@[simp] theorem drawOpen_snapEver : (drawOpen s).snapEver = s.snapEver := rfl
@[simp] theorem drawOpen_snapAx : (drawOpen s).snapAx = s.snapAx := rfl
@[simp] theorem drawOpen_snapBtn : (drawOpen s).snapBtn = s.snapBtn := rfl
@[simp] theorem drawOpen_snapHat : (drawOpen s).snapHat = s.snapHat := rfl
@[simp] theorem drawOpen_axout : (drawOpen s).axout = s.axout := rfl
@[simp] theorem drawOpen_flen : (drawOpen s).flen = s.flen := rfl
@[simp] theorem drawOpen_fbuf : (drawOpen s).fbuf = s.fbuf := rfl
@[simp] theorem drawOpen_port : (drawOpen s).port = s.port := rfl
@[simp] theorem drawOpen_txResult : (drawOpen s).txResult = s.txResult := rfl
@[simp] theorem drawOpen_rxq : (drawOpen s).rxq = s.rxq := rfl
@[simp] theorem drawOpen_baud : (drawOpen s).baud = s.baud := rfl
@[simp] theorem drawOpen_wtoMs : (drawOpen s).wtoMs = s.wtoMs := rfl
@[simp] theorem drawOpen_periodMs : (drawOpen s).periodMs = s.periodMs := rfl
@[simp] theorem drawOpen_roundTie : (drawOpen s).roundTie = s.roundTie := rfl
@[simp] theorem drawOpen_wire : (drawOpen s).wire = s.wire := rfl
@[simp] theorem drawOpen_disp : (drawOpen s).disp = s.disp := rfl
@[simp] theorem drawOpen_log : (drawOpen s).log = s.log := rfl
@[simp] theorem drawOpen_inb : (drawOpen s).inb = s.inb := rfl
@[simp] theorem drawOpen_devAttached : (drawOpen s).devAttached = s.devAttached := rfl
@[simp] theorem drawOpen_agenda : (drawOpen s).agenda = s.agenda := rfl
@[simp] theorem drawOpen_openScript : (drawOpen s).openScript = s.openScript.tail := rfl
@[simp] theorem drawOpen_openDraws : (drawOpen s).openDraws = s.openDraws + 1 := rfl
@[simp] theorem drawOpen_txScript : (drawOpen s).txScript = s.txScript := rfl
@[simp] theorem drawOpen_txDraws : (drawOpen s).txDraws = s.txDraws := rfl
@[simp] theorem drawOpen_reads : (drawOpen s).reads = s.reads := rfl

/-! drawTx -/

@[simp] theorem drawTx_params : (drawTx s).params = s.params := rfl
@[simp] theorem drawTx_loop : (drawTx s).loop = s.loop := rfl
@[simp] theorem drawTx_tickPend : (drawTx s).tickPend = s.tickPend := rfl
@[simp] theorem drawTx_hcq : (drawTx s).hcq = s.hcq := rfl
@[simp] theorem drawTx_result : (drawTx s).result = s.result := rfl
@[simp] theorem drawTx_fatalCode : (drawTx s).fatalCode = s.fatalCode := rfl
@[simp] theorem drawTx_devFound : (drawTx s).devFound = s.devFound := rfl
@[simp] theorem drawTx_devPresent : (drawTx s).devPresent = s.devPresent := rfl
@[simp] theorem drawTx_devLost : (drawTx s).devLost = s.devLost := rfl
@[simp] theorem drawTx_nax : (drawTx s).nax = s.nax := rfl
@[simp] theorem drawTx_nbtn : (drawTx s).nbtn = s.nbtn := rfl
@[simp] theorem drawTx_nhat : (drawTx s).nhat = s.nhat := rfl
@[simp] theorem drawTx_liveAx : (drawTx s).liveAx = s.liveAx := rfl
@[simp] theorem drawTx_liveBtn : (drawTx s).liveBtn = s.liveBtn := rfl
@[simp] theorem drawTx_liveHat : (drawTx s).liveHat = s.liveHat := rfl
@[simp] theorem drawTx_evq : (drawTx s).evq = s.evq := rfl
@[simp] theorem drawTx_snapValid : (drawTx s).snapValid = s.snapValid := rfl
@[simp] theorem drawTx_snapEver : (drawTx s).snapEver = s.snapEver := rfl
@[simp] theorem drawTx_snapAx : (drawTx s).snapAx = s.snapAx := rfl
@[simp] theorem drawTx_snapBtn : (drawTx s).snapBtn = s.snapBtn := rfl
@[simp] theorem drawTx_snapHat : (drawTx s).snapHat = s.snapHat := rfl
@[simp] theorem drawTx_axout : (drawTx s).axout = s.axout := rfl
@[simp] theorem drawTx_flen : (drawTx s).flen = s.flen := rfl
@[simp] theorem drawTx_fbuf : (drawTx s).fbuf = s.fbuf := rfl
@[simp] theorem drawTx_port : (drawTx s).port = s.port := rfl
@[simp] theorem drawTx_txResult : (drawTx s).txResult = s.txResult := rfl
@[simp] theorem drawTx_rxq : (drawTx s).rxq = s.rxq := rfl
@[simp] theorem drawTx_baud : (drawTx s).baud = s.baud := rfl
@[simp] theorem drawTx_wtoMs : (drawTx s).wtoMs = s.wtoMs := rfl
@[simp] theorem drawTx_periodMs : (drawTx s).periodMs = s.periodMs := rfl
@[simp] theorem drawTx_roundTie : (drawTx s).roundTie = s.roundTie := rfl
@[simp] theorem drawTx_wire : (drawTx s).wire = s.wire := rfl
@[simp] theorem drawTx_disp : (drawTx s).disp = s.disp := rfl
@[simp] theorem drawTx_log : (drawTx s).log = s.log := rfl
@[simp] theorem drawTx_inb : (drawTx s).inb = s.inb := rfl
@[simp] theorem drawTx_devAttached : (drawTx s).devAttached = s.devAttached := rfl
@[simp] theorem drawTx_agenda : (drawTx s).agenda = s.agenda := rfl
@[simp] theorem drawTx_openScript : (drawTx s).openScript = s.openScript := rfl
@[simp] theorem drawTx_openDraws : (drawTx s).openDraws = s.openDraws := rfl
@[simp] theorem drawTx_txScript : (drawTx s).txScript = s.txScript.tail := rfl
@[simp] theorem drawTx_txDraws : (drawTx s).txDraws = s.txDraws + 1 := rfl
@[simp] theorem drawTx_reads : (drawTx s).reads = s.reads := rfl

/-! enterShutdown -/

@[simp] theorem enterShutdown_params : (enterShutdown s).params = s.params := rfl
@[simp] theorem enterShutdown_loop : (enterShutdown s).loop = loopShutdown := rfl
@[simp] theorem enterShutdown_tickPend : (enterShutdown s).tickPend = 0#16 := rfl
@[simp] theorem enterShutdown_hcq : (enterShutdown s).hcq = s.hcq := rfl
@[simp] theorem enterShutdown_result : (enterShutdown s).result = s.result := rfl
@[simp] theorem enterShutdown_fatalCode : (enterShutdown s).fatalCode = s.fatalCode := rfl
@[simp] theorem enterShutdown_devFound : (enterShutdown s).devFound = s.devFound := rfl
@[simp] theorem enterShutdown_devPresent : (enterShutdown s).devPresent = false := rfl
@[simp] theorem enterShutdown_devLost : (enterShutdown s).devLost = s.devLost := rfl
@[simp] theorem enterShutdown_nax : (enterShutdown s).nax = s.nax := rfl
@[simp] theorem enterShutdown_nbtn : (enterShutdown s).nbtn = s.nbtn := rfl
@[simp] theorem enterShutdown_nhat : (enterShutdown s).nhat = s.nhat := rfl
@[simp] theorem enterShutdown_liveAx : (enterShutdown s).liveAx = s.liveAx := rfl
@[simp] theorem enterShutdown_liveBtn : (enterShutdown s).liveBtn = s.liveBtn := rfl
@[simp] theorem enterShutdown_liveHat : (enterShutdown s).liveHat = s.liveHat := rfl
@[simp] theorem enterShutdown_evq : (enterShutdown s).evq = [] := rfl
@[simp] theorem enterShutdown_snapValid : (enterShutdown s).snapValid = s.snapValid := rfl
@[simp] theorem enterShutdown_snapEver : (enterShutdown s).snapEver = s.snapEver := rfl
@[simp] theorem enterShutdown_snapAx : (enterShutdown s).snapAx = s.snapAx := rfl
@[simp] theorem enterShutdown_snapBtn : (enterShutdown s).snapBtn = s.snapBtn := rfl
@[simp] theorem enterShutdown_snapHat : (enterShutdown s).snapHat = s.snapHat := rfl
@[simp] theorem enterShutdown_axout : (enterShutdown s).axout = s.axout := rfl
@[simp] theorem enterShutdown_flen : (enterShutdown s).flen = 0#5 := rfl
@[simp] theorem enterShutdown_fbuf : (enterShutdown s).fbuf = s.fbuf := rfl
@[simp] theorem enterShutdown_port : (enterShutdown s).port = false := rfl
@[simp] theorem enterShutdown_txResult : (enterShutdown s).txResult = s.txResult := rfl
@[simp] theorem enterShutdown_rxq : (enterShutdown s).rxq = [] := rfl
@[simp] theorem enterShutdown_baud : (enterShutdown s).baud = s.baud := rfl
@[simp] theorem enterShutdown_wtoMs : (enterShutdown s).wtoMs = s.wtoMs := rfl
@[simp] theorem enterShutdown_periodMs : (enterShutdown s).periodMs = s.periodMs := rfl
@[simp] theorem enterShutdown_roundTie : (enterShutdown s).roundTie = s.roundTie := rfl
@[simp] theorem enterShutdown_wire : (enterShutdown s).wire = s.wire := rfl
@[simp] theorem enterShutdown_disp : (enterShutdown s).disp = s.disp := rfl
@[simp] theorem enterShutdown_log : (enterShutdown s).log = s.log := rfl
@[simp] theorem enterShutdown_inb : (enterShutdown s).inb = s.inb := rfl
@[simp] theorem enterShutdown_devAttached : (enterShutdown s).devAttached = s.devAttached := rfl
@[simp] theorem enterShutdown_agenda : (enterShutdown s).agenda = s.agenda := rfl
@[simp] theorem enterShutdown_openScript : (enterShutdown s).openScript = s.openScript := rfl
@[simp] theorem enterShutdown_openDraws : (enterShutdown s).openDraws = s.openDraws := rfl
@[simp] theorem enterShutdown_txScript : (enterShutdown s).txScript = s.txScript := rfl
@[simp] theorem enterShutdown_txDraws : (enterShutdown s).txDraws = s.txDraws := rfl
@[simp] theorem enterShutdown_reads : (enterShutdown s).reads = s.reads := rfl

/-! enterTicking -/

@[simp] theorem enterTicking_params : (enterTicking s).params = s.params := rfl
@[simp] theorem enterTicking_loop : (enterTicking s).loop = loopTicking := rfl
@[simp] theorem enterTicking_tickPend : (enterTicking s).tickPend = 0#16 := rfl
@[simp] theorem enterTicking_hcq : (enterTicking s).hcq = s.hcq := rfl
@[simp] theorem enterTicking_result : (enterTicking s).result = s.result := rfl
@[simp] theorem enterTicking_fatalCode : (enterTicking s).fatalCode = s.fatalCode := rfl
@[simp] theorem enterTicking_devFound : (enterTicking s).devFound = s.devFound := rfl
@[simp] theorem enterTicking_devPresent : (enterTicking s).devPresent = s.devPresent := rfl
@[simp] theorem enterTicking_devLost : (enterTicking s).devLost = s.devLost := rfl
@[simp] theorem enterTicking_nax : (enterTicking s).nax = s.nax := rfl
@[simp] theorem enterTicking_nbtn : (enterTicking s).nbtn = s.nbtn := rfl
@[simp] theorem enterTicking_nhat : (enterTicking s).nhat = s.nhat := rfl
@[simp] theorem enterTicking_liveAx : (enterTicking s).liveAx = s.liveAx := rfl
@[simp] theorem enterTicking_liveBtn : (enterTicking s).liveBtn = s.liveBtn := rfl
@[simp] theorem enterTicking_liveHat : (enterTicking s).liveHat = s.liveHat := rfl
@[simp] theorem enterTicking_evq : (enterTicking s).evq = s.evq := rfl
@[simp] theorem enterTicking_snapValid : (enterTicking s).snapValid = s.snapValid := rfl
@[simp] theorem enterTicking_snapEver : (enterTicking s).snapEver = s.snapEver := rfl
@[simp] theorem enterTicking_snapAx : (enterTicking s).snapAx = s.snapAx := rfl
@[simp] theorem enterTicking_snapBtn : (enterTicking s).snapBtn = s.snapBtn := rfl
@[simp] theorem enterTicking_snapHat : (enterTicking s).snapHat = s.snapHat := rfl
@[simp] theorem enterTicking_axout : (enterTicking s).axout = s.axout := rfl
@[simp] theorem enterTicking_flen : (enterTicking s).flen = 0#5 := rfl
@[simp] theorem enterTicking_fbuf : (enterTicking s).fbuf = s.fbuf := rfl
@[simp] theorem enterTicking_port : (enterTicking s).port = s.port := rfl
@[simp] theorem enterTicking_txResult : (enterTicking s).txResult = s.txResult := rfl
@[simp] theorem enterTicking_rxq : (enterTicking s).rxq = s.rxq := rfl
@[simp] theorem enterTicking_baud : (enterTicking s).baud = s.baud := rfl
@[simp] theorem enterTicking_wtoMs : (enterTicking s).wtoMs = s.wtoMs := rfl
@[simp] theorem enterTicking_periodMs : (enterTicking s).periodMs = s.periodMs := rfl
@[simp] theorem enterTicking_roundTie : (enterTicking s).roundTie = s.roundTie := rfl
@[simp] theorem enterTicking_wire : (enterTicking s).wire = s.wire := rfl
@[simp] theorem enterTicking_disp : (enterTicking s).disp = s.disp := rfl
@[simp] theorem enterTicking_log : (enterTicking s).log = s.log := rfl
@[simp] theorem enterTicking_inb : (enterTicking s).inb = s.inb := rfl
@[simp] theorem enterTicking_devAttached : (enterTicking s).devAttached = s.devAttached := rfl
@[simp] theorem enterTicking_agenda : (enterTicking s).agenda = s.agenda := rfl
@[simp] theorem enterTicking_openScript : (enterTicking s).openScript = s.openScript := rfl
@[simp] theorem enterTicking_openDraws : (enterTicking s).openDraws = s.openDraws := rfl
@[simp] theorem enterTicking_txScript : (enterTicking s).txScript = s.txScript := rfl
@[simp] theorem enterTicking_txDraws : (enterTicking s).txDraws = s.txDraws := rfl
@[simp] theorem enterTicking_reads : (enterTicking s).reads = s.reads := rfl

/-! takeTick -/

@[simp] theorem takeTick_params : (takeTick s).params = s.params := rfl
@[simp] theorem takeTick_loop : (takeTick s).loop = s.loop := rfl
@[simp] theorem takeTick_tickPend : (takeTick s).tickPend = s.tickPend - 1#16 := rfl
@[simp] theorem takeTick_hcq : (takeTick s).hcq = s.hcq := rfl
@[simp] theorem takeTick_result : (takeTick s).result = s.result := rfl
@[simp] theorem takeTick_fatalCode : (takeTick s).fatalCode = s.fatalCode := rfl
@[simp] theorem takeTick_devFound : (takeTick s).devFound = s.devFound := rfl
@[simp] theorem takeTick_devPresent : (takeTick s).devPresent = s.devPresent := rfl
@[simp] theorem takeTick_devLost : (takeTick s).devLost = s.devLost := rfl
@[simp] theorem takeTick_nax : (takeTick s).nax = s.nax := rfl
@[simp] theorem takeTick_nbtn : (takeTick s).nbtn = s.nbtn := rfl
@[simp] theorem takeTick_nhat : (takeTick s).nhat = s.nhat := rfl
@[simp] theorem takeTick_liveAx : (takeTick s).liveAx = s.liveAx := rfl
@[simp] theorem takeTick_liveBtn : (takeTick s).liveBtn = s.liveBtn := rfl
@[simp] theorem takeTick_liveHat : (takeTick s).liveHat = s.liveHat := rfl
@[simp] theorem takeTick_evq : (takeTick s).evq = s.evq := rfl
@[simp] theorem takeTick_snapValid : (takeTick s).snapValid = s.snapValid := rfl
@[simp] theorem takeTick_snapEver : (takeTick s).snapEver = s.snapEver := rfl
@[simp] theorem takeTick_snapAx : (takeTick s).snapAx = s.snapAx := rfl
@[simp] theorem takeTick_snapBtn : (takeTick s).snapBtn = s.snapBtn := rfl
@[simp] theorem takeTick_snapHat : (takeTick s).snapHat = s.snapHat := rfl
@[simp] theorem takeTick_axout : (takeTick s).axout = s.axout := rfl
@[simp] theorem takeTick_flen : (takeTick s).flen = s.flen := rfl
@[simp] theorem takeTick_fbuf : (takeTick s).fbuf = s.fbuf := rfl
@[simp] theorem takeTick_port : (takeTick s).port = s.port := rfl
@[simp] theorem takeTick_txResult : (takeTick s).txResult = s.txResult := rfl
@[simp] theorem takeTick_rxq : (takeTick s).rxq = s.rxq := rfl
@[simp] theorem takeTick_baud : (takeTick s).baud = s.baud := rfl
@[simp] theorem takeTick_wtoMs : (takeTick s).wtoMs = s.wtoMs := rfl
@[simp] theorem takeTick_periodMs : (takeTick s).periodMs = s.periodMs := rfl
@[simp] theorem takeTick_roundTie : (takeTick s).roundTie = s.roundTie := rfl
@[simp] theorem takeTick_wire : (takeTick s).wire = s.wire := rfl
@[simp] theorem takeTick_disp : (takeTick s).disp = s.disp := rfl
@[simp] theorem takeTick_log : (takeTick s).log = s.log := rfl
@[simp] theorem takeTick_inb : (takeTick s).inb = s.inb := rfl
@[simp] theorem takeTick_devAttached : (takeTick s).devAttached = s.devAttached := rfl
@[simp] theorem takeTick_agenda : (takeTick s).agenda = s.agenda := rfl
@[simp] theorem takeTick_openScript : (takeTick s).openScript = s.openScript := rfl
@[simp] theorem takeTick_openDraws : (takeTick s).openDraws = s.openDraws := rfl
@[simp] theorem takeTick_txScript : (takeTick s).txScript = s.txScript := rfl
@[simp] theorem takeTick_txDraws : (takeTick s).txDraws = s.txDraws := rfl
@[simp] theorem takeTick_reads : (takeTick s).reads = s.reads := rfl

/-! setFatal -/

@[simp] theorem setFatal_params (c : ResultCode) : (setFatal c s).params = s.params := rfl
@[simp] theorem setFatal_loop (c : ResultCode) : (setFatal c s).loop = s.loop := rfl
@[simp] theorem setFatal_tickPend (c : ResultCode) : (setFatal c s).tickPend = s.tickPend := rfl
@[simp] theorem setFatal_hcq (c : ResultCode) : (setFatal c s).hcq = s.hcq := rfl
@[simp] theorem setFatal_result (c : ResultCode) : (setFatal c s).result = s.result := rfl
@[simp] theorem setFatal_fatalCode (c : ResultCode) : (setFatal c s).fatalCode = codeByte c := rfl
@[simp] theorem setFatal_devFound (c : ResultCode) : (setFatal c s).devFound = s.devFound := rfl
@[simp] theorem setFatal_devPresent (c : ResultCode) : (setFatal c s).devPresent = s.devPresent := rfl
@[simp] theorem setFatal_devLost (c : ResultCode) : (setFatal c s).devLost = s.devLost := rfl
@[simp] theorem setFatal_nax (c : ResultCode) : (setFatal c s).nax = s.nax := rfl
@[simp] theorem setFatal_nbtn (c : ResultCode) : (setFatal c s).nbtn = s.nbtn := rfl
@[simp] theorem setFatal_nhat (c : ResultCode) : (setFatal c s).nhat = s.nhat := rfl
@[simp] theorem setFatal_liveAx (c : ResultCode) : (setFatal c s).liveAx = s.liveAx := rfl
@[simp] theorem setFatal_liveBtn (c : ResultCode) : (setFatal c s).liveBtn = s.liveBtn := rfl
@[simp] theorem setFatal_liveHat (c : ResultCode) : (setFatal c s).liveHat = s.liveHat := rfl
@[simp] theorem setFatal_evq (c : ResultCode) : (setFatal c s).evq = s.evq := rfl
@[simp] theorem setFatal_snapValid (c : ResultCode) : (setFatal c s).snapValid = s.snapValid := rfl
@[simp] theorem setFatal_snapEver (c : ResultCode) : (setFatal c s).snapEver = s.snapEver := rfl
@[simp] theorem setFatal_snapAx (c : ResultCode) : (setFatal c s).snapAx = s.snapAx := rfl
@[simp] theorem setFatal_snapBtn (c : ResultCode) : (setFatal c s).snapBtn = s.snapBtn := rfl
@[simp] theorem setFatal_snapHat (c : ResultCode) : (setFatal c s).snapHat = s.snapHat := rfl
@[simp] theorem setFatal_axout (c : ResultCode) : (setFatal c s).axout = s.axout := rfl
@[simp] theorem setFatal_flen (c : ResultCode) : (setFatal c s).flen = s.flen := rfl
@[simp] theorem setFatal_fbuf (c : ResultCode) : (setFatal c s).fbuf = s.fbuf := rfl
@[simp] theorem setFatal_port (c : ResultCode) : (setFatal c s).port = s.port := rfl
@[simp] theorem setFatal_txResult (c : ResultCode) : (setFatal c s).txResult = s.txResult := rfl
@[simp] theorem setFatal_rxq (c : ResultCode) : (setFatal c s).rxq = s.rxq := rfl
@[simp] theorem setFatal_baud (c : ResultCode) : (setFatal c s).baud = s.baud := rfl
@[simp] theorem setFatal_wtoMs (c : ResultCode) : (setFatal c s).wtoMs = s.wtoMs := rfl
@[simp] theorem setFatal_periodMs (c : ResultCode) : (setFatal c s).periodMs = s.periodMs := rfl
@[simp] theorem setFatal_roundTie (c : ResultCode) : (setFatal c s).roundTie = s.roundTie := rfl
@[simp] theorem setFatal_wire (c : ResultCode) : (setFatal c s).wire = s.wire := rfl
@[simp] theorem setFatal_disp (c : ResultCode) : (setFatal c s).disp = s.disp := rfl
@[simp] theorem setFatal_log (c : ResultCode) : (setFatal c s).log = s.log := rfl
@[simp] theorem setFatal_inb (c : ResultCode) : (setFatal c s).inb = s.inb := rfl
@[simp] theorem setFatal_devAttached (c : ResultCode) : (setFatal c s).devAttached = s.devAttached := rfl
@[simp] theorem setFatal_agenda (c : ResultCode) : (setFatal c s).agenda = s.agenda := rfl
@[simp] theorem setFatal_openScript (c : ResultCode) : (setFatal c s).openScript = s.openScript := rfl
@[simp] theorem setFatal_openDraws (c : ResultCode) : (setFatal c s).openDraws = s.openDraws := rfl
@[simp] theorem setFatal_txScript (c : ResultCode) : (setFatal c s).txScript = s.txScript := rfl
@[simp] theorem setFatal_txDraws (c : ResultCode) : (setFatal c s).txDraws = s.txDraws := rfl
@[simp] theorem setFatal_reads (c : ResultCode) : (setFatal c s).reads = s.reads := rfl

/-! clearEvents -/

@[simp] theorem clearEvents_params : (clearEvents s).params = s.params := rfl
@[simp] theorem clearEvents_loop : (clearEvents s).loop = s.loop := rfl
@[simp] theorem clearEvents_tickPend : (clearEvents s).tickPend = s.tickPend := rfl
@[simp] theorem clearEvents_hcq : (clearEvents s).hcq = s.hcq := rfl
@[simp] theorem clearEvents_result : (clearEvents s).result = s.result := rfl
@[simp] theorem clearEvents_fatalCode : (clearEvents s).fatalCode = s.fatalCode := rfl
@[simp] theorem clearEvents_devFound : (clearEvents s).devFound = s.devFound := rfl
@[simp] theorem clearEvents_devPresent : (clearEvents s).devPresent = s.devPresent := rfl
@[simp] theorem clearEvents_devLost : (clearEvents s).devLost = s.devLost := rfl
@[simp] theorem clearEvents_nax : (clearEvents s).nax = s.nax := rfl
@[simp] theorem clearEvents_nbtn : (clearEvents s).nbtn = s.nbtn := rfl
@[simp] theorem clearEvents_nhat : (clearEvents s).nhat = s.nhat := rfl
@[simp] theorem clearEvents_liveAx : (clearEvents s).liveAx = s.liveAx := rfl
@[simp] theorem clearEvents_liveBtn : (clearEvents s).liveBtn = s.liveBtn := rfl
@[simp] theorem clearEvents_liveHat : (clearEvents s).liveHat = s.liveHat := rfl
@[simp] theorem clearEvents_evq : (clearEvents s).evq = [] := rfl
@[simp] theorem clearEvents_snapValid : (clearEvents s).snapValid = s.snapValid := rfl
@[simp] theorem clearEvents_snapEver : (clearEvents s).snapEver = s.snapEver := rfl
@[simp] theorem clearEvents_snapAx : (clearEvents s).snapAx = s.snapAx := rfl
@[simp] theorem clearEvents_snapBtn : (clearEvents s).snapBtn = s.snapBtn := rfl
@[simp] theorem clearEvents_snapHat : (clearEvents s).snapHat = s.snapHat := rfl
@[simp] theorem clearEvents_axout : (clearEvents s).axout = s.axout := rfl
@[simp] theorem clearEvents_flen : (clearEvents s).flen = s.flen := rfl
@[simp] theorem clearEvents_fbuf : (clearEvents s).fbuf = s.fbuf := rfl
@[simp] theorem clearEvents_port : (clearEvents s).port = s.port := rfl
@[simp] theorem clearEvents_txResult : (clearEvents s).txResult = s.txResult := rfl
@[simp] theorem clearEvents_rxq : (clearEvents s).rxq = s.rxq := rfl
@[simp] theorem clearEvents_baud : (clearEvents s).baud = s.baud := rfl
@[simp] theorem clearEvents_wtoMs : (clearEvents s).wtoMs = s.wtoMs := rfl
@[simp] theorem clearEvents_periodMs : (clearEvents s).periodMs = s.periodMs := rfl
@[simp] theorem clearEvents_roundTie : (clearEvents s).roundTie = s.roundTie := rfl
@[simp] theorem clearEvents_wire : (clearEvents s).wire = s.wire := rfl
@[simp] theorem clearEvents_disp : (clearEvents s).disp = s.disp := rfl
@[simp] theorem clearEvents_log : (clearEvents s).log = s.log := rfl
@[simp] theorem clearEvents_inb : (clearEvents s).inb = s.inb := rfl
@[simp] theorem clearEvents_devAttached : (clearEvents s).devAttached = s.devAttached := rfl
@[simp] theorem clearEvents_agenda : (clearEvents s).agenda = s.agenda := rfl
@[simp] theorem clearEvents_openScript : (clearEvents s).openScript = s.openScript := rfl
@[simp] theorem clearEvents_openDraws : (clearEvents s).openDraws = s.openDraws := rfl
@[simp] theorem clearEvents_txScript : (clearEvents s).txScript = s.txScript := rfl
@[simp] theorem clearEvents_txDraws : (clearEvents s).txDraws = s.txDraws := rfl
@[simp] theorem clearEvents_reads : (clearEvents s).reads = s.reads := rfl

/-! clearValid -/

@[simp] theorem clearValid_params : (clearValid s).params = s.params := rfl
@[simp] theorem clearValid_loop : (clearValid s).loop = s.loop := rfl
@[simp] theorem clearValid_tickPend : (clearValid s).tickPend = s.tickPend := rfl
@[simp] theorem clearValid_hcq : (clearValid s).hcq = s.hcq := rfl
@[simp] theorem clearValid_result : (clearValid s).result = s.result := rfl
@[simp] theorem clearValid_fatalCode : (clearValid s).fatalCode = s.fatalCode := rfl
@[simp] theorem clearValid_devFound : (clearValid s).devFound = s.devFound := rfl
@[simp] theorem clearValid_devPresent : (clearValid s).devPresent = s.devPresent := rfl
@[simp] theorem clearValid_devLost : (clearValid s).devLost = s.devLost := rfl
@[simp] theorem clearValid_nax : (clearValid s).nax = s.nax := rfl
@[simp] theorem clearValid_nbtn : (clearValid s).nbtn = s.nbtn := rfl
@[simp] theorem clearValid_nhat : (clearValid s).nhat = s.nhat := rfl
@[simp] theorem clearValid_liveAx : (clearValid s).liveAx = s.liveAx := rfl
@[simp] theorem clearValid_liveBtn : (clearValid s).liveBtn = s.liveBtn := rfl
@[simp] theorem clearValid_liveHat : (clearValid s).liveHat = s.liveHat := rfl
@[simp] theorem clearValid_evq : (clearValid s).evq = s.evq := rfl
@[simp] theorem clearValid_snapValid : (clearValid s).snapValid = false := rfl
@[simp] theorem clearValid_snapEver : (clearValid s).snapEver = s.snapEver := rfl
@[simp] theorem clearValid_snapAx : (clearValid s).snapAx = s.snapAx := rfl
@[simp] theorem clearValid_snapBtn : (clearValid s).snapBtn = s.snapBtn := rfl
@[simp] theorem clearValid_snapHat : (clearValid s).snapHat = s.snapHat := rfl
@[simp] theorem clearValid_axout : (clearValid s).axout = s.axout := rfl
@[simp] theorem clearValid_flen : (clearValid s).flen = s.flen := rfl
@[simp] theorem clearValid_fbuf : (clearValid s).fbuf = s.fbuf := rfl
@[simp] theorem clearValid_port : (clearValid s).port = s.port := rfl
@[simp] theorem clearValid_txResult : (clearValid s).txResult = s.txResult := rfl
@[simp] theorem clearValid_rxq : (clearValid s).rxq = s.rxq := rfl
@[simp] theorem clearValid_baud : (clearValid s).baud = s.baud := rfl
@[simp] theorem clearValid_wtoMs : (clearValid s).wtoMs = s.wtoMs := rfl
@[simp] theorem clearValid_periodMs : (clearValid s).periodMs = s.periodMs := rfl
@[simp] theorem clearValid_roundTie : (clearValid s).roundTie = s.roundTie := rfl
@[simp] theorem clearValid_wire : (clearValid s).wire = s.wire := rfl
@[simp] theorem clearValid_disp : (clearValid s).disp = s.disp := rfl
@[simp] theorem clearValid_log : (clearValid s).log = s.log := rfl
@[simp] theorem clearValid_inb : (clearValid s).inb = s.inb := rfl
@[simp] theorem clearValid_devAttached : (clearValid s).devAttached = s.devAttached := rfl
@[simp] theorem clearValid_agenda : (clearValid s).agenda = s.agenda := rfl
@[simp] theorem clearValid_openScript : (clearValid s).openScript = s.openScript := rfl
@[simp] theorem clearValid_openDraws : (clearValid s).openDraws = s.openDraws := rfl
@[simp] theorem clearValid_txScript : (clearValid s).txScript = s.txScript := rfl
@[simp] theorem clearValid_txDraws : (clearValid s).txDraws = s.txDraws := rfl
@[simp] theorem clearValid_reads : (clearValid s).reads = s.reads := rfl

/-! capture -/

@[simp] theorem capture_params : (capture s).params = s.params := rfl
@[simp] theorem capture_loop : (capture s).loop = s.loop := rfl
@[simp] theorem capture_tickPend : (capture s).tickPend = s.tickPend := rfl
@[simp] theorem capture_hcq : (capture s).hcq = s.hcq := rfl
@[simp] theorem capture_result : (capture s).result = s.result := rfl
@[simp] theorem capture_fatalCode : (capture s).fatalCode = s.fatalCode := rfl
@[simp] theorem capture_devFound : (capture s).devFound = s.devFound := rfl
@[simp] theorem capture_devPresent : (capture s).devPresent = s.devPresent := rfl
@[simp] theorem capture_devLost : (capture s).devLost = s.devLost := rfl
@[simp] theorem capture_nax : (capture s).nax = s.nax := rfl
@[simp] theorem capture_nbtn : (capture s).nbtn = s.nbtn := rfl
@[simp] theorem capture_nhat : (capture s).nhat = s.nhat := rfl
@[simp] theorem capture_liveAx : (capture s).liveAx = s.liveAx := rfl
@[simp] theorem capture_liveBtn : (capture s).liveBtn = s.liveBtn := rfl
@[simp] theorem capture_liveHat : (capture s).liveHat = s.liveHat := rfl
@[simp] theorem capture_evq : (capture s).evq = s.evq := rfl
@[simp] theorem capture_snapValid : (capture s).snapValid = true := rfl
@[simp] theorem capture_snapEver : (capture s).snapEver = true := rfl
@[simp] theorem capture_snapAx : (capture s).snapAx = s.liveAx := rfl
@[simp] theorem capture_snapBtn : (capture s).snapBtn = s.liveBtn := rfl
@[simp] theorem capture_snapHat : (capture s).snapHat = s.liveHat := rfl
@[simp] theorem capture_axout : (capture s).axout = s.axout := rfl
@[simp] theorem capture_flen : (capture s).flen = s.flen := rfl
@[simp] theorem capture_fbuf : (capture s).fbuf = s.fbuf := rfl
@[simp] theorem capture_port : (capture s).port = s.port := rfl
@[simp] theorem capture_txResult : (capture s).txResult = s.txResult := rfl
@[simp] theorem capture_rxq : (capture s).rxq = s.rxq := rfl
@[simp] theorem capture_baud : (capture s).baud = s.baud := rfl
@[simp] theorem capture_wtoMs : (capture s).wtoMs = s.wtoMs := rfl
@[simp] theorem capture_periodMs : (capture s).periodMs = s.periodMs := rfl
@[simp] theorem capture_roundTie : (capture s).roundTie = s.roundTie := rfl
@[simp] theorem capture_wire : (capture s).wire = s.wire := rfl
@[simp] theorem capture_disp : (capture s).disp = s.disp := rfl
@[simp] theorem capture_log : (capture s).log = s.log := rfl
@[simp] theorem capture_inb : (capture s).inb = s.inb := rfl
@[simp] theorem capture_devAttached : (capture s).devAttached = s.devAttached := rfl
@[simp] theorem capture_agenda : (capture s).agenda = s.agenda := rfl
@[simp] theorem capture_openScript : (capture s).openScript = s.openScript := rfl
@[simp] theorem capture_openDraws : (capture s).openDraws = s.openDraws := rfl
@[simp] theorem capture_txScript : (capture s).txScript = s.txScript := rfl
@[simp] theorem capture_txDraws : (capture s).txDraws = s.txDraws := rfl
@[simp] theorem capture_reads : (capture s).reads = s.reads := rfl

/-! display -/

@[simp] theorem display_params : (display s).params = s.params := rfl
@[simp] theorem display_loop : (display s).loop = s.loop := rfl
@[simp] theorem display_tickPend : (display s).tickPend = s.tickPend := rfl
@[simp] theorem display_hcq : (display s).hcq = s.hcq := rfl
@[simp] theorem display_result : (display s).result = s.result := rfl
@[simp] theorem display_fatalCode : (display s).fatalCode = s.fatalCode := rfl
@[simp] theorem display_devFound : (display s).devFound = s.devFound := rfl
@[simp] theorem display_devPresent : (display s).devPresent = s.devPresent := rfl
@[simp] theorem display_devLost : (display s).devLost = s.devLost := rfl
@[simp] theorem display_nax : (display s).nax = s.nax := rfl
@[simp] theorem display_nbtn : (display s).nbtn = s.nbtn := rfl
@[simp] theorem display_nhat : (display s).nhat = s.nhat := rfl
@[simp] theorem display_liveAx : (display s).liveAx = s.liveAx := rfl
@[simp] theorem display_liveBtn : (display s).liveBtn = s.liveBtn := rfl
@[simp] theorem display_liveHat : (display s).liveHat = s.liveHat := rfl
@[simp] theorem display_evq : (display s).evq = s.evq := rfl
@[simp] theorem display_snapValid : (display s).snapValid = s.snapValid := rfl
@[simp] theorem display_snapEver : (display s).snapEver = s.snapEver := rfl
@[simp] theorem display_snapAx : (display s).snapAx = s.snapAx := rfl
@[simp] theorem display_snapBtn : (display s).snapBtn = s.snapBtn := rfl
@[simp] theorem display_snapHat : (display s).snapHat = s.snapHat := rfl
@[simp] theorem display_axout : (display s).axout = s.axout := rfl
@[simp] theorem display_flen : (display s).flen = s.flen := rfl
@[simp] theorem display_fbuf : (display s).fbuf = s.fbuf := rfl
@[simp] theorem display_port : (display s).port = s.port := rfl
@[simp] theorem display_txResult : (display s).txResult = s.txResult := rfl
@[simp] theorem display_rxq : (display s).rxq = s.rxq := rfl
@[simp] theorem display_baud : (display s).baud = s.baud := rfl
@[simp] theorem display_wtoMs : (display s).wtoMs = s.wtoMs := rfl
@[simp] theorem display_periodMs : (display s).periodMs = s.periodMs := rfl
@[simp] theorem display_roundTie : (display s).roundTie = s.roundTie := rfl
@[simp] theorem display_wire : (display s).wire = s.wire := rfl
@[simp] theorem display_disp : (display s).disp = s.disp ++ [displayRecord s] := rfl
@[simp] theorem display_log : (display s).log = s.log := rfl
@[simp] theorem display_inb : (display s).inb = s.inb := rfl
@[simp] theorem display_devAttached : (display s).devAttached = s.devAttached := rfl
@[simp] theorem display_agenda : (display s).agenda = s.agenda := rfl
@[simp] theorem display_openScript : (display s).openScript = s.openScript := rfl
@[simp] theorem display_openDraws : (display s).openDraws = s.openDraws := rfl
@[simp] theorem display_txScript : (display s).txScript = s.txScript := rfl
@[simp] theorem display_txDraws : (display s).txDraws = s.txDraws := rfl
@[simp] theorem display_reads : (display s).reads = s.reads := rfl

/-! setAxout -/

@[simp] theorem setAxout_params (n : Nat) : (setAxout n s).params = s.params := rfl
@[simp] theorem setAxout_loop (n : Nat) : (setAxout n s).loop = s.loop := rfl
@[simp] theorem setAxout_tickPend (n : Nat) : (setAxout n s).tickPend = s.tickPend := rfl
@[simp] theorem setAxout_hcq (n : Nat) : (setAxout n s).hcq = s.hcq := rfl
@[simp] theorem setAxout_result (n : Nat) : (setAxout n s).result = s.result := rfl
@[simp] theorem setAxout_fatalCode (n : Nat) : (setAxout n s).fatalCode = s.fatalCode := rfl
@[simp] theorem setAxout_devFound (n : Nat) : (setAxout n s).devFound = s.devFound := rfl
@[simp] theorem setAxout_devPresent (n : Nat) : (setAxout n s).devPresent = s.devPresent := rfl
@[simp] theorem setAxout_devLost (n : Nat) : (setAxout n s).devLost = s.devLost := rfl
@[simp] theorem setAxout_nax (n : Nat) : (setAxout n s).nax = s.nax := rfl
@[simp] theorem setAxout_nbtn (n : Nat) : (setAxout n s).nbtn = s.nbtn := rfl
@[simp] theorem setAxout_nhat (n : Nat) : (setAxout n s).nhat = s.nhat := rfl
@[simp] theorem setAxout_liveAx (n : Nat) : (setAxout n s).liveAx = s.liveAx := rfl
@[simp] theorem setAxout_liveBtn (n : Nat) : (setAxout n s).liveBtn = s.liveBtn := rfl
@[simp] theorem setAxout_liveHat (n : Nat) : (setAxout n s).liveHat = s.liveHat := rfl
@[simp] theorem setAxout_evq (n : Nat) : (setAxout n s).evq = s.evq := rfl
@[simp] theorem setAxout_snapValid (n : Nat) : (setAxout n s).snapValid = s.snapValid := rfl
@[simp] theorem setAxout_snapEver (n : Nat) : (setAxout n s).snapEver = s.snapEver := rfl
@[simp] theorem setAxout_snapAx (n : Nat) : (setAxout n s).snapAx = s.snapAx := rfl
@[simp] theorem setAxout_snapBtn (n : Nat) : (setAxout n s).snapBtn = s.snapBtn := rfl
@[simp] theorem setAxout_snapHat (n : Nat) : (setAxout n s).snapHat = s.snapHat := rfl
@[simp] theorem setAxout_axout (n : Nat) : (setAxout n s).axout = percentByte n := rfl
@[simp] theorem setAxout_flen (n : Nat) : (setAxout n s).flen = s.flen := rfl
@[simp] theorem setAxout_fbuf (n : Nat) : (setAxout n s).fbuf = s.fbuf := rfl
@[simp] theorem setAxout_port (n : Nat) : (setAxout n s).port = s.port := rfl
@[simp] theorem setAxout_txResult (n : Nat) : (setAxout n s).txResult = s.txResult := rfl
@[simp] theorem setAxout_rxq (n : Nat) : (setAxout n s).rxq = s.rxq := rfl
@[simp] theorem setAxout_baud (n : Nat) : (setAxout n s).baud = s.baud := rfl
@[simp] theorem setAxout_wtoMs (n : Nat) : (setAxout n s).wtoMs = s.wtoMs := rfl
@[simp] theorem setAxout_periodMs (n : Nat) : (setAxout n s).periodMs = s.periodMs := rfl
@[simp] theorem setAxout_roundTie (n : Nat) : (setAxout n s).roundTie = s.roundTie := rfl
@[simp] theorem setAxout_wire (n : Nat) : (setAxout n s).wire = s.wire := rfl
@[simp] theorem setAxout_disp (n : Nat) : (setAxout n s).disp = s.disp := rfl
@[simp] theorem setAxout_log (n : Nat) : (setAxout n s).log = s.log := rfl
@[simp] theorem setAxout_inb (n : Nat) : (setAxout n s).inb = s.inb := rfl
@[simp] theorem setAxout_devAttached (n : Nat) : (setAxout n s).devAttached = s.devAttached := rfl
@[simp] theorem setAxout_agenda (n : Nat) : (setAxout n s).agenda = s.agenda := rfl
@[simp] theorem setAxout_openScript (n : Nat) : (setAxout n s).openScript = s.openScript := rfl
@[simp] theorem setAxout_openDraws (n : Nat) : (setAxout n s).openDraws = s.openDraws := rfl
@[simp] theorem setAxout_txScript (n : Nat) : (setAxout n s).txScript = s.txScript := rfl
@[simp] theorem setAxout_txDraws (n : Nat) : (setAxout n s).txDraws = s.txDraws := rfl
@[simp] theorem setAxout_reads (n : Nat) : (setAxout n s).reads = s.reads := rfl

/-! assembleMotor -/

@[simp] theorem assembleMotor_params (f : MotorFrame) : (assembleMotor f s).params = s.params := rfl
@[simp] theorem assembleMotor_loop (f : MotorFrame) : (assembleMotor f s).loop = s.loop := rfl
@[simp] theorem assembleMotor_tickPend (f : MotorFrame) : (assembleMotor f s).tickPend = s.tickPend := rfl
@[simp] theorem assembleMotor_hcq (f : MotorFrame) : (assembleMotor f s).hcq = s.hcq := rfl
@[simp] theorem assembleMotor_result (f : MotorFrame) : (assembleMotor f s).result = s.result := rfl
@[simp] theorem assembleMotor_fatalCode (f : MotorFrame) : (assembleMotor f s).fatalCode = s.fatalCode := rfl
@[simp] theorem assembleMotor_devFound (f : MotorFrame) : (assembleMotor f s).devFound = s.devFound := rfl
@[simp] theorem assembleMotor_devPresent (f : MotorFrame) : (assembleMotor f s).devPresent = s.devPresent := rfl
@[simp] theorem assembleMotor_devLost (f : MotorFrame) : (assembleMotor f s).devLost = s.devLost := rfl
@[simp] theorem assembleMotor_nax (f : MotorFrame) : (assembleMotor f s).nax = s.nax := rfl
@[simp] theorem assembleMotor_nbtn (f : MotorFrame) : (assembleMotor f s).nbtn = s.nbtn := rfl
@[simp] theorem assembleMotor_nhat (f : MotorFrame) : (assembleMotor f s).nhat = s.nhat := rfl
@[simp] theorem assembleMotor_liveAx (f : MotorFrame) : (assembleMotor f s).liveAx = s.liveAx := rfl
@[simp] theorem assembleMotor_liveBtn (f : MotorFrame) : (assembleMotor f s).liveBtn = s.liveBtn := rfl
@[simp] theorem assembleMotor_liveHat (f : MotorFrame) : (assembleMotor f s).liveHat = s.liveHat := rfl
@[simp] theorem assembleMotor_evq (f : MotorFrame) : (assembleMotor f s).evq = s.evq := rfl
@[simp] theorem assembleMotor_snapValid (f : MotorFrame) : (assembleMotor f s).snapValid = s.snapValid := rfl
@[simp] theorem assembleMotor_snapEver (f : MotorFrame) : (assembleMotor f s).snapEver = s.snapEver := rfl
@[simp] theorem assembleMotor_snapAx (f : MotorFrame) : (assembleMotor f s).snapAx = s.snapAx := rfl
@[simp] theorem assembleMotor_snapBtn (f : MotorFrame) : (assembleMotor f s).snapBtn = s.snapBtn := rfl
@[simp] theorem assembleMotor_snapHat (f : MotorFrame) : (assembleMotor f s).snapHat = s.snapHat := rfl
@[simp] theorem assembleMotor_axout (f : MotorFrame) : (assembleMotor f s).axout = s.axout := rfl
@[simp] theorem assembleMotor_flen (f : MotorFrame) : (assembleMotor f s).flen = 17#5 := rfl
@[simp] theorem assembleMotor_fbuf (f : MotorFrame) : (assembleMotor f s).fbuf = motorCells f := rfl
@[simp] theorem assembleMotor_port (f : MotorFrame) : (assembleMotor f s).port = s.port := rfl
@[simp] theorem assembleMotor_txResult (f : MotorFrame) : (assembleMotor f s).txResult = s.txResult := rfl
@[simp] theorem assembleMotor_rxq (f : MotorFrame) : (assembleMotor f s).rxq = s.rxq := rfl
@[simp] theorem assembleMotor_baud (f : MotorFrame) : (assembleMotor f s).baud = s.baud := rfl
@[simp] theorem assembleMotor_wtoMs (f : MotorFrame) : (assembleMotor f s).wtoMs = s.wtoMs := rfl
@[simp] theorem assembleMotor_periodMs (f : MotorFrame) : (assembleMotor f s).periodMs = s.periodMs := rfl
@[simp] theorem assembleMotor_roundTie (f : MotorFrame) : (assembleMotor f s).roundTie = s.roundTie := rfl
@[simp] theorem assembleMotor_wire (f : MotorFrame) : (assembleMotor f s).wire = s.wire := rfl
@[simp] theorem assembleMotor_disp (f : MotorFrame) : (assembleMotor f s).disp = s.disp := rfl
@[simp] theorem assembleMotor_log (f : MotorFrame) : (assembleMotor f s).log = s.log := rfl
@[simp] theorem assembleMotor_inb (f : MotorFrame) : (assembleMotor f s).inb = s.inb := rfl
@[simp] theorem assembleMotor_devAttached (f : MotorFrame) : (assembleMotor f s).devAttached = s.devAttached := rfl
@[simp] theorem assembleMotor_agenda (f : MotorFrame) : (assembleMotor f s).agenda = s.agenda := rfl
@[simp] theorem assembleMotor_openScript (f : MotorFrame) : (assembleMotor f s).openScript = s.openScript := rfl
@[simp] theorem assembleMotor_openDraws (f : MotorFrame) : (assembleMotor f s).openDraws = s.openDraws := rfl
@[simp] theorem assembleMotor_txScript (f : MotorFrame) : (assembleMotor f s).txScript = s.txScript := rfl
@[simp] theorem assembleMotor_txDraws (f : MotorFrame) : (assembleMotor f s).txDraws = s.txDraws := rfl
@[simp] theorem assembleMotor_reads (f : MotorFrame) : (assembleMotor f s).reads = s.reads := rfl

/-! assembleReset -/

@[simp] theorem assembleReset_params : (assembleReset s).params = s.params := rfl
@[simp] theorem assembleReset_loop : (assembleReset s).loop = s.loop := rfl
@[simp] theorem assembleReset_tickPend : (assembleReset s).tickPend = s.tickPend := rfl
@[simp] theorem assembleReset_hcq : (assembleReset s).hcq = s.hcq := rfl
@[simp] theorem assembleReset_result : (assembleReset s).result = s.result := rfl
@[simp] theorem assembleReset_fatalCode : (assembleReset s).fatalCode = s.fatalCode := rfl
@[simp] theorem assembleReset_devFound : (assembleReset s).devFound = s.devFound := rfl
@[simp] theorem assembleReset_devPresent : (assembleReset s).devPresent = s.devPresent := rfl
@[simp] theorem assembleReset_devLost : (assembleReset s).devLost = s.devLost := rfl
@[simp] theorem assembleReset_nax : (assembleReset s).nax = s.nax := rfl
@[simp] theorem assembleReset_nbtn : (assembleReset s).nbtn = s.nbtn := rfl
@[simp] theorem assembleReset_nhat : (assembleReset s).nhat = s.nhat := rfl
@[simp] theorem assembleReset_liveAx : (assembleReset s).liveAx = s.liveAx := rfl
@[simp] theorem assembleReset_liveBtn : (assembleReset s).liveBtn = s.liveBtn := rfl
@[simp] theorem assembleReset_liveHat : (assembleReset s).liveHat = s.liveHat := rfl
@[simp] theorem assembleReset_evq : (assembleReset s).evq = s.evq := rfl
@[simp] theorem assembleReset_snapValid : (assembleReset s).snapValid = s.snapValid := rfl
@[simp] theorem assembleReset_snapEver : (assembleReset s).snapEver = s.snapEver := rfl
@[simp] theorem assembleReset_snapAx : (assembleReset s).snapAx = s.snapAx := rfl
@[simp] theorem assembleReset_snapBtn : (assembleReset s).snapBtn = s.snapBtn := rfl
@[simp] theorem assembleReset_snapHat : (assembleReset s).snapHat = s.snapHat := rfl
@[simp] theorem assembleReset_axout : (assembleReset s).axout = s.axout := rfl
@[simp] theorem assembleReset_flen : (assembleReset s).flen = 1#5 := rfl
@[simp] theorem assembleReset_fbuf : (assembleReset s).fbuf = s.fbuf.set 0 251#8 := rfl
@[simp] theorem assembleReset_port : (assembleReset s).port = s.port := rfl
@[simp] theorem assembleReset_txResult : (assembleReset s).txResult = s.txResult := rfl
@[simp] theorem assembleReset_rxq : (assembleReset s).rxq = s.rxq := rfl
@[simp] theorem assembleReset_baud : (assembleReset s).baud = s.baud := rfl
@[simp] theorem assembleReset_wtoMs : (assembleReset s).wtoMs = s.wtoMs := rfl
@[simp] theorem assembleReset_periodMs : (assembleReset s).periodMs = s.periodMs := rfl
@[simp] theorem assembleReset_roundTie : (assembleReset s).roundTie = s.roundTie := rfl
@[simp] theorem assembleReset_wire : (assembleReset s).wire = s.wire := rfl
@[simp] theorem assembleReset_disp : (assembleReset s).disp = s.disp := rfl
@[simp] theorem assembleReset_log : (assembleReset s).log = s.log := rfl
@[simp] theorem assembleReset_inb : (assembleReset s).inb = s.inb := rfl
@[simp] theorem assembleReset_devAttached : (assembleReset s).devAttached = s.devAttached := rfl
@[simp] theorem assembleReset_agenda : (assembleReset s).agenda = s.agenda := rfl
@[simp] theorem assembleReset_openScript : (assembleReset s).openScript = s.openScript := rfl
@[simp] theorem assembleReset_openDraws : (assembleReset s).openDraws = s.openDraws := rfl
@[simp] theorem assembleReset_txScript : (assembleReset s).txScript = s.txScript := rfl
@[simp] theorem assembleReset_txDraws : (assembleReset s).txDraws = s.txDraws := rfl
@[simp] theorem assembleReset_reads : (assembleReset s).reads = s.reads := rfl

/-! dropFrame -/

@[simp] theorem dropFrame_params : (dropFrame s).params = s.params := rfl
@[simp] theorem dropFrame_loop : (dropFrame s).loop = s.loop := rfl
@[simp] theorem dropFrame_tickPend : (dropFrame s).tickPend = s.tickPend := rfl
@[simp] theorem dropFrame_hcq : (dropFrame s).hcq = s.hcq := rfl
@[simp] theorem dropFrame_result : (dropFrame s).result = s.result := rfl
@[simp] theorem dropFrame_fatalCode : (dropFrame s).fatalCode = s.fatalCode := rfl
@[simp] theorem dropFrame_devFound : (dropFrame s).devFound = s.devFound := rfl
@[simp] theorem dropFrame_devPresent : (dropFrame s).devPresent = s.devPresent := rfl
@[simp] theorem dropFrame_devLost : (dropFrame s).devLost = s.devLost := rfl
@[simp] theorem dropFrame_nax : (dropFrame s).nax = s.nax := rfl
@[simp] theorem dropFrame_nbtn : (dropFrame s).nbtn = s.nbtn := rfl
@[simp] theorem dropFrame_nhat : (dropFrame s).nhat = s.nhat := rfl
@[simp] theorem dropFrame_liveAx : (dropFrame s).liveAx = s.liveAx := rfl
@[simp] theorem dropFrame_liveBtn : (dropFrame s).liveBtn = s.liveBtn := rfl
@[simp] theorem dropFrame_liveHat : (dropFrame s).liveHat = s.liveHat := rfl
@[simp] theorem dropFrame_evq : (dropFrame s).evq = s.evq := rfl
@[simp] theorem dropFrame_snapValid : (dropFrame s).snapValid = s.snapValid := rfl
@[simp] theorem dropFrame_snapEver : (dropFrame s).snapEver = s.snapEver := rfl
@[simp] theorem dropFrame_snapAx : (dropFrame s).snapAx = s.snapAx := rfl
@[simp] theorem dropFrame_snapBtn : (dropFrame s).snapBtn = s.snapBtn := rfl
@[simp] theorem dropFrame_snapHat : (dropFrame s).snapHat = s.snapHat := rfl
@[simp] theorem dropFrame_axout : (dropFrame s).axout = s.axout := rfl
@[simp] theorem dropFrame_flen : (dropFrame s).flen = 0#5 := rfl
@[simp] theorem dropFrame_fbuf : (dropFrame s).fbuf = s.fbuf := rfl
@[simp] theorem dropFrame_port : (dropFrame s).port = s.port := rfl
@[simp] theorem dropFrame_txResult : (dropFrame s).txResult = s.txResult := rfl
@[simp] theorem dropFrame_rxq : (dropFrame s).rxq = s.rxq := rfl
@[simp] theorem dropFrame_baud : (dropFrame s).baud = s.baud := rfl
@[simp] theorem dropFrame_wtoMs : (dropFrame s).wtoMs = s.wtoMs := rfl
@[simp] theorem dropFrame_periodMs : (dropFrame s).periodMs = s.periodMs := rfl
@[simp] theorem dropFrame_roundTie : (dropFrame s).roundTie = s.roundTie := rfl
@[simp] theorem dropFrame_wire : (dropFrame s).wire = s.wire := rfl
@[simp] theorem dropFrame_disp : (dropFrame s).disp = s.disp := rfl
@[simp] theorem dropFrame_log : (dropFrame s).log = s.log := rfl
@[simp] theorem dropFrame_inb : (dropFrame s).inb = s.inb := rfl
@[simp] theorem dropFrame_devAttached : (dropFrame s).devAttached = s.devAttached := rfl
@[simp] theorem dropFrame_agenda : (dropFrame s).agenda = s.agenda := rfl
@[simp] theorem dropFrame_openScript : (dropFrame s).openScript = s.openScript := rfl
@[simp] theorem dropFrame_openDraws : (dropFrame s).openDraws = s.openDraws := rfl
@[simp] theorem dropFrame_txScript : (dropFrame s).txScript = s.txScript := rfl
@[simp] theorem dropFrame_txDraws : (dropFrame s).txDraws = s.txDraws := rfl
@[simp] theorem dropFrame_reads : (dropFrame s).reads = s.reads := rfl

/-! setTxResult -/

@[simp] theorem setTxResult_params (c : ResultCode) : (setTxResult c s).params = s.params := rfl
@[simp] theorem setTxResult_loop (c : ResultCode) : (setTxResult c s).loop = s.loop := rfl
@[simp] theorem setTxResult_tickPend (c : ResultCode) : (setTxResult c s).tickPend = s.tickPend := rfl
@[simp] theorem setTxResult_hcq (c : ResultCode) : (setTxResult c s).hcq = s.hcq := rfl
@[simp] theorem setTxResult_result (c : ResultCode) : (setTxResult c s).result = s.result := rfl
@[simp] theorem setTxResult_fatalCode (c : ResultCode) : (setTxResult c s).fatalCode = s.fatalCode := rfl
@[simp] theorem setTxResult_devFound (c : ResultCode) : (setTxResult c s).devFound = s.devFound := rfl
@[simp] theorem setTxResult_devPresent (c : ResultCode) : (setTxResult c s).devPresent = s.devPresent := rfl
@[simp] theorem setTxResult_devLost (c : ResultCode) : (setTxResult c s).devLost = s.devLost := rfl
@[simp] theorem setTxResult_nax (c : ResultCode) : (setTxResult c s).nax = s.nax := rfl
@[simp] theorem setTxResult_nbtn (c : ResultCode) : (setTxResult c s).nbtn = s.nbtn := rfl
@[simp] theorem setTxResult_nhat (c : ResultCode) : (setTxResult c s).nhat = s.nhat := rfl
@[simp] theorem setTxResult_liveAx (c : ResultCode) : (setTxResult c s).liveAx = s.liveAx := rfl
@[simp] theorem setTxResult_liveBtn (c : ResultCode) : (setTxResult c s).liveBtn = s.liveBtn := rfl
@[simp] theorem setTxResult_liveHat (c : ResultCode) : (setTxResult c s).liveHat = s.liveHat := rfl
@[simp] theorem setTxResult_evq (c : ResultCode) : (setTxResult c s).evq = s.evq := rfl
@[simp] theorem setTxResult_snapValid (c : ResultCode) : (setTxResult c s).snapValid = s.snapValid := rfl
@[simp] theorem setTxResult_snapEver (c : ResultCode) : (setTxResult c s).snapEver = s.snapEver := rfl
@[simp] theorem setTxResult_snapAx (c : ResultCode) : (setTxResult c s).snapAx = s.snapAx := rfl
@[simp] theorem setTxResult_snapBtn (c : ResultCode) : (setTxResult c s).snapBtn = s.snapBtn := rfl
@[simp] theorem setTxResult_snapHat (c : ResultCode) : (setTxResult c s).snapHat = s.snapHat := rfl
@[simp] theorem setTxResult_axout (c : ResultCode) : (setTxResult c s).axout = s.axout := rfl
@[simp] theorem setTxResult_flen (c : ResultCode) : (setTxResult c s).flen = s.flen := rfl
@[simp] theorem setTxResult_fbuf (c : ResultCode) : (setTxResult c s).fbuf = s.fbuf := rfl
@[simp] theorem setTxResult_port (c : ResultCode) : (setTxResult c s).port = s.port := rfl
@[simp] theorem setTxResult_txResult (c : ResultCode) : (setTxResult c s).txResult = codeByte c := rfl
@[simp] theorem setTxResult_rxq (c : ResultCode) : (setTxResult c s).rxq = s.rxq := rfl
@[simp] theorem setTxResult_baud (c : ResultCode) : (setTxResult c s).baud = s.baud := rfl
@[simp] theorem setTxResult_wtoMs (c : ResultCode) : (setTxResult c s).wtoMs = s.wtoMs := rfl
@[simp] theorem setTxResult_periodMs (c : ResultCode) : (setTxResult c s).periodMs = s.periodMs := rfl
@[simp] theorem setTxResult_roundTie (c : ResultCode) : (setTxResult c s).roundTie = s.roundTie := rfl
@[simp] theorem setTxResult_wire (c : ResultCode) : (setTxResult c s).wire = s.wire := rfl
@[simp] theorem setTxResult_disp (c : ResultCode) : (setTxResult c s).disp = s.disp := rfl
@[simp] theorem setTxResult_log (c : ResultCode) : (setTxResult c s).log = s.log := rfl
@[simp] theorem setTxResult_inb (c : ResultCode) : (setTxResult c s).inb = s.inb := rfl
@[simp] theorem setTxResult_devAttached (c : ResultCode) : (setTxResult c s).devAttached = s.devAttached := rfl
@[simp] theorem setTxResult_agenda (c : ResultCode) : (setTxResult c s).agenda = s.agenda := rfl
@[simp] theorem setTxResult_openScript (c : ResultCode) : (setTxResult c s).openScript = s.openScript := rfl
@[simp] theorem setTxResult_openDraws (c : ResultCode) : (setTxResult c s).openDraws = s.openDraws := rfl
@[simp] theorem setTxResult_txScript (c : ResultCode) : (setTxResult c s).txScript = s.txScript := rfl
@[simp] theorem setTxResult_txDraws (c : ResultCode) : (setTxResult c s).txDraws = s.txDraws := rfl
@[simp] theorem setTxResult_reads (c : ResultCode) : (setTxResult c s).reads = s.reads := rfl

/-! emitWire -/

@[simp] theorem emitWire_params (bs : List Byte) : (emitWire bs s).params = s.params := rfl
@[simp] theorem emitWire_loop (bs : List Byte) : (emitWire bs s).loop = s.loop := rfl
@[simp] theorem emitWire_tickPend (bs : List Byte) : (emitWire bs s).tickPend = s.tickPend := rfl
@[simp] theorem emitWire_hcq (bs : List Byte) : (emitWire bs s).hcq = s.hcq := rfl
@[simp] theorem emitWire_result (bs : List Byte) : (emitWire bs s).result = s.result := rfl
@[simp] theorem emitWire_fatalCode (bs : List Byte) : (emitWire bs s).fatalCode = s.fatalCode := rfl
@[simp] theorem emitWire_devFound (bs : List Byte) : (emitWire bs s).devFound = s.devFound := rfl
@[simp] theorem emitWire_devPresent (bs : List Byte) : (emitWire bs s).devPresent = s.devPresent := rfl
@[simp] theorem emitWire_devLost (bs : List Byte) : (emitWire bs s).devLost = s.devLost := rfl
@[simp] theorem emitWire_nax (bs : List Byte) : (emitWire bs s).nax = s.nax := rfl
@[simp] theorem emitWire_nbtn (bs : List Byte) : (emitWire bs s).nbtn = s.nbtn := rfl
@[simp] theorem emitWire_nhat (bs : List Byte) : (emitWire bs s).nhat = s.nhat := rfl
@[simp] theorem emitWire_liveAx (bs : List Byte) : (emitWire bs s).liveAx = s.liveAx := rfl
@[simp] theorem emitWire_liveBtn (bs : List Byte) : (emitWire bs s).liveBtn = s.liveBtn := rfl
@[simp] theorem emitWire_liveHat (bs : List Byte) : (emitWire bs s).liveHat = s.liveHat := rfl
@[simp] theorem emitWire_evq (bs : List Byte) : (emitWire bs s).evq = s.evq := rfl
@[simp] theorem emitWire_snapValid (bs : List Byte) : (emitWire bs s).snapValid = s.snapValid := rfl
@[simp] theorem emitWire_snapEver (bs : List Byte) : (emitWire bs s).snapEver = s.snapEver := rfl
@[simp] theorem emitWire_snapAx (bs : List Byte) : (emitWire bs s).snapAx = s.snapAx := rfl
@[simp] theorem emitWire_snapBtn (bs : List Byte) : (emitWire bs s).snapBtn = s.snapBtn := rfl
@[simp] theorem emitWire_snapHat (bs : List Byte) : (emitWire bs s).snapHat = s.snapHat := rfl
@[simp] theorem emitWire_axout (bs : List Byte) : (emitWire bs s).axout = s.axout := rfl
@[simp] theorem emitWire_flen (bs : List Byte) : (emitWire bs s).flen = s.flen := rfl
@[simp] theorem emitWire_fbuf (bs : List Byte) : (emitWire bs s).fbuf = s.fbuf := rfl
@[simp] theorem emitWire_port (bs : List Byte) : (emitWire bs s).port = s.port := rfl
@[simp] theorem emitWire_txResult (bs : List Byte) : (emitWire bs s).txResult = s.txResult := rfl
@[simp] theorem emitWire_rxq (bs : List Byte) : (emitWire bs s).rxq = s.rxq := rfl
@[simp] theorem emitWire_baud (bs : List Byte) : (emitWire bs s).baud = s.baud := rfl
@[simp] theorem emitWire_wtoMs (bs : List Byte) : (emitWire bs s).wtoMs = s.wtoMs := rfl
@[simp] theorem emitWire_periodMs (bs : List Byte) : (emitWire bs s).periodMs = s.periodMs := rfl
@[simp] theorem emitWire_roundTie (bs : List Byte) : (emitWire bs s).roundTie = s.roundTie := rfl
@[simp] theorem emitWire_wire (bs : List Byte) : (emitWire bs s).wire = s.wire ++ bs := rfl
@[simp] theorem emitWire_disp (bs : List Byte) : (emitWire bs s).disp = s.disp := rfl
@[simp] theorem emitWire_log (bs : List Byte) : (emitWire bs s).log = s.log := rfl
@[simp] theorem emitWire_inb (bs : List Byte) : (emitWire bs s).inb = s.inb := rfl
@[simp] theorem emitWire_devAttached (bs : List Byte) : (emitWire bs s).devAttached = s.devAttached := rfl
@[simp] theorem emitWire_agenda (bs : List Byte) : (emitWire bs s).agenda = s.agenda := rfl
@[simp] theorem emitWire_openScript (bs : List Byte) : (emitWire bs s).openScript = s.openScript := rfl
@[simp] theorem emitWire_openDraws (bs : List Byte) : (emitWire bs s).openDraws = s.openDraws := rfl
@[simp] theorem emitWire_txScript (bs : List Byte) : (emitWire bs s).txScript = s.txScript := rfl
@[simp] theorem emitWire_txDraws (bs : List Byte) : (emitWire bs s).txDraws = s.txDraws := rfl
@[simp] theorem emitWire_reads (bs : List Byte) : (emitWire bs s).reads = s.reads := rfl

/-! emitInbound -/

@[simp] theorem emitInbound_params (bs : List Byte) : (emitInbound bs s).params = s.params := rfl
@[simp] theorem emitInbound_loop (bs : List Byte) : (emitInbound bs s).loop = s.loop := rfl
@[simp] theorem emitInbound_tickPend (bs : List Byte) : (emitInbound bs s).tickPend = s.tickPend := rfl
@[simp] theorem emitInbound_hcq (bs : List Byte) : (emitInbound bs s).hcq = s.hcq := rfl
@[simp] theorem emitInbound_result (bs : List Byte) : (emitInbound bs s).result = s.result := rfl
@[simp] theorem emitInbound_fatalCode (bs : List Byte) : (emitInbound bs s).fatalCode = s.fatalCode := rfl
@[simp] theorem emitInbound_devFound (bs : List Byte) : (emitInbound bs s).devFound = s.devFound := rfl
@[simp] theorem emitInbound_devPresent (bs : List Byte) : (emitInbound bs s).devPresent = s.devPresent := rfl
@[simp] theorem emitInbound_devLost (bs : List Byte) : (emitInbound bs s).devLost = s.devLost := rfl
@[simp] theorem emitInbound_nax (bs : List Byte) : (emitInbound bs s).nax = s.nax := rfl
@[simp] theorem emitInbound_nbtn (bs : List Byte) : (emitInbound bs s).nbtn = s.nbtn := rfl
@[simp] theorem emitInbound_nhat (bs : List Byte) : (emitInbound bs s).nhat = s.nhat := rfl
@[simp] theorem emitInbound_liveAx (bs : List Byte) : (emitInbound bs s).liveAx = s.liveAx := rfl
@[simp] theorem emitInbound_liveBtn (bs : List Byte) : (emitInbound bs s).liveBtn = s.liveBtn := rfl
@[simp] theorem emitInbound_liveHat (bs : List Byte) : (emitInbound bs s).liveHat = s.liveHat := rfl
@[simp] theorem emitInbound_evq (bs : List Byte) : (emitInbound bs s).evq = s.evq := rfl
@[simp] theorem emitInbound_snapValid (bs : List Byte) : (emitInbound bs s).snapValid = s.snapValid := rfl
@[simp] theorem emitInbound_snapEver (bs : List Byte) : (emitInbound bs s).snapEver = s.snapEver := rfl
@[simp] theorem emitInbound_snapAx (bs : List Byte) : (emitInbound bs s).snapAx = s.snapAx := rfl
@[simp] theorem emitInbound_snapBtn (bs : List Byte) : (emitInbound bs s).snapBtn = s.snapBtn := rfl
@[simp] theorem emitInbound_snapHat (bs : List Byte) : (emitInbound bs s).snapHat = s.snapHat := rfl
@[simp] theorem emitInbound_axout (bs : List Byte) : (emitInbound bs s).axout = s.axout := rfl
@[simp] theorem emitInbound_flen (bs : List Byte) : (emitInbound bs s).flen = s.flen := rfl
@[simp] theorem emitInbound_fbuf (bs : List Byte) : (emitInbound bs s).fbuf = s.fbuf := rfl
@[simp] theorem emitInbound_port (bs : List Byte) : (emitInbound bs s).port = s.port := rfl
@[simp] theorem emitInbound_txResult (bs : List Byte) : (emitInbound bs s).txResult = s.txResult := rfl
@[simp] theorem emitInbound_rxq (bs : List Byte) : (emitInbound bs s).rxq = s.rxq := rfl
@[simp] theorem emitInbound_baud (bs : List Byte) : (emitInbound bs s).baud = s.baud := rfl
@[simp] theorem emitInbound_wtoMs (bs : List Byte) : (emitInbound bs s).wtoMs = s.wtoMs := rfl
@[simp] theorem emitInbound_periodMs (bs : List Byte) : (emitInbound bs s).periodMs = s.periodMs := rfl
@[simp] theorem emitInbound_roundTie (bs : List Byte) : (emitInbound bs s).roundTie = s.roundTie := rfl
@[simp] theorem emitInbound_wire (bs : List Byte) : (emitInbound bs s).wire = s.wire := rfl
@[simp] theorem emitInbound_disp (bs : List Byte) : (emitInbound bs s).disp = s.disp := rfl
@[simp] theorem emitInbound_log (bs : List Byte) : (emitInbound bs s).log = s.log := rfl
@[simp] theorem emitInbound_inb (bs : List Byte) : (emitInbound bs s).inb = s.inb ++ [bs] := rfl
@[simp] theorem emitInbound_devAttached (bs : List Byte) : (emitInbound bs s).devAttached = s.devAttached := rfl
@[simp] theorem emitInbound_agenda (bs : List Byte) : (emitInbound bs s).agenda = s.agenda := rfl
@[simp] theorem emitInbound_openScript (bs : List Byte) : (emitInbound bs s).openScript = s.openScript := rfl
@[simp] theorem emitInbound_openDraws (bs : List Byte) : (emitInbound bs s).openDraws = s.openDraws := rfl
@[simp] theorem emitInbound_txScript (bs : List Byte) : (emitInbound bs s).txScript = s.txScript := rfl
@[simp] theorem emitInbound_txDraws (bs : List Byte) : (emitInbound bs s).txDraws = s.txDraws := rfl
@[simp] theorem emitInbound_reads (bs : List Byte) : (emitInbound bs s).reads = s.reads := rfl

/-! clearInbound -/

@[simp] theorem clearInbound_params : (clearInbound s).params = s.params := rfl
@[simp] theorem clearInbound_loop : (clearInbound s).loop = s.loop := rfl
@[simp] theorem clearInbound_tickPend : (clearInbound s).tickPend = s.tickPend := rfl
@[simp] theorem clearInbound_hcq : (clearInbound s).hcq = s.hcq := rfl
@[simp] theorem clearInbound_result : (clearInbound s).result = s.result := rfl
@[simp] theorem clearInbound_fatalCode : (clearInbound s).fatalCode = s.fatalCode := rfl
@[simp] theorem clearInbound_devFound : (clearInbound s).devFound = s.devFound := rfl
@[simp] theorem clearInbound_devPresent : (clearInbound s).devPresent = s.devPresent := rfl
@[simp] theorem clearInbound_devLost : (clearInbound s).devLost = s.devLost := rfl
@[simp] theorem clearInbound_nax : (clearInbound s).nax = s.nax := rfl
@[simp] theorem clearInbound_nbtn : (clearInbound s).nbtn = s.nbtn := rfl
@[simp] theorem clearInbound_nhat : (clearInbound s).nhat = s.nhat := rfl
@[simp] theorem clearInbound_liveAx : (clearInbound s).liveAx = s.liveAx := rfl
@[simp] theorem clearInbound_liveBtn : (clearInbound s).liveBtn = s.liveBtn := rfl
@[simp] theorem clearInbound_liveHat : (clearInbound s).liveHat = s.liveHat := rfl
@[simp] theorem clearInbound_evq : (clearInbound s).evq = s.evq := rfl
@[simp] theorem clearInbound_snapValid : (clearInbound s).snapValid = s.snapValid := rfl
@[simp] theorem clearInbound_snapEver : (clearInbound s).snapEver = s.snapEver := rfl
@[simp] theorem clearInbound_snapAx : (clearInbound s).snapAx = s.snapAx := rfl
@[simp] theorem clearInbound_snapBtn : (clearInbound s).snapBtn = s.snapBtn := rfl
@[simp] theorem clearInbound_snapHat : (clearInbound s).snapHat = s.snapHat := rfl
@[simp] theorem clearInbound_axout : (clearInbound s).axout = s.axout := rfl
@[simp] theorem clearInbound_flen : (clearInbound s).flen = s.flen := rfl
@[simp] theorem clearInbound_fbuf : (clearInbound s).fbuf = s.fbuf := rfl
@[simp] theorem clearInbound_port : (clearInbound s).port = s.port := rfl
@[simp] theorem clearInbound_txResult : (clearInbound s).txResult = s.txResult := rfl
@[simp] theorem clearInbound_rxq : (clearInbound s).rxq = [] := rfl
@[simp] theorem clearInbound_baud : (clearInbound s).baud = s.baud := rfl
@[simp] theorem clearInbound_wtoMs : (clearInbound s).wtoMs = s.wtoMs := rfl
@[simp] theorem clearInbound_periodMs : (clearInbound s).periodMs = s.periodMs := rfl
@[simp] theorem clearInbound_roundTie : (clearInbound s).roundTie = s.roundTie := rfl
@[simp] theorem clearInbound_wire : (clearInbound s).wire = s.wire := rfl
@[simp] theorem clearInbound_disp : (clearInbound s).disp = s.disp := rfl
@[simp] theorem clearInbound_log : (clearInbound s).log = s.log := rfl
@[simp] theorem clearInbound_inb : (clearInbound s).inb = s.inb := rfl
@[simp] theorem clearInbound_devAttached : (clearInbound s).devAttached = s.devAttached := rfl
@[simp] theorem clearInbound_agenda : (clearInbound s).agenda = s.agenda := rfl
@[simp] theorem clearInbound_openScript : (clearInbound s).openScript = s.openScript := rfl
@[simp] theorem clearInbound_openDraws : (clearInbound s).openDraws = s.openDraws := rfl
@[simp] theorem clearInbound_txScript : (clearInbound s).txScript = s.txScript := rfl
@[simp] theorem clearInbound_txDraws : (clearInbound s).txDraws = s.txDraws := rfl
@[simp] theorem clearInbound_reads : (clearInbound s).reads = s.reads := rfl

/-! portUp -/

@[simp] theorem portUp_params : (portUp s).params = s.params := rfl
@[simp] theorem portUp_loop : (portUp s).loop = s.loop := rfl
@[simp] theorem portUp_tickPend : (portUp s).tickPend = s.tickPend := rfl
@[simp] theorem portUp_hcq : (portUp s).hcq = s.hcq := rfl
@[simp] theorem portUp_result : (portUp s).result = s.result := rfl
@[simp] theorem portUp_fatalCode : (portUp s).fatalCode = s.fatalCode := rfl
@[simp] theorem portUp_devFound : (portUp s).devFound = s.devFound := rfl
@[simp] theorem portUp_devPresent : (portUp s).devPresent = s.devPresent := rfl
@[simp] theorem portUp_devLost : (portUp s).devLost = s.devLost := rfl
@[simp] theorem portUp_nax : (portUp s).nax = s.nax := rfl
@[simp] theorem portUp_nbtn : (portUp s).nbtn = s.nbtn := rfl
@[simp] theorem portUp_nhat : (portUp s).nhat = s.nhat := rfl
@[simp] theorem portUp_liveAx : (portUp s).liveAx = s.liveAx := rfl
@[simp] theorem portUp_liveBtn : (portUp s).liveBtn = s.liveBtn := rfl
@[simp] theorem portUp_liveHat : (portUp s).liveHat = s.liveHat := rfl
@[simp] theorem portUp_evq : (portUp s).evq = s.evq := rfl
@[simp] theorem portUp_snapValid : (portUp s).snapValid = s.snapValid := rfl
@[simp] theorem portUp_snapEver : (portUp s).snapEver = s.snapEver := rfl
@[simp] theorem portUp_snapAx : (portUp s).snapAx = s.snapAx := rfl
@[simp] theorem portUp_snapBtn : (portUp s).snapBtn = s.snapBtn := rfl
@[simp] theorem portUp_snapHat : (portUp s).snapHat = s.snapHat := rfl
@[simp] theorem portUp_axout : (portUp s).axout = s.axout := rfl
@[simp] theorem portUp_flen : (portUp s).flen = s.flen := rfl
@[simp] theorem portUp_fbuf : (portUp s).fbuf = s.fbuf := rfl
@[simp] theorem portUp_port : (portUp s).port = true := rfl
@[simp] theorem portUp_txResult : (portUp s).txResult = s.txResult := rfl
@[simp] theorem portUp_rxq : (portUp s).rxq = [] := rfl
@[simp] theorem portUp_baud : (portUp s).baud = s.baud := rfl
@[simp] theorem portUp_wtoMs : (portUp s).wtoMs = s.wtoMs := rfl
@[simp] theorem portUp_periodMs : (portUp s).periodMs = s.periodMs := rfl
@[simp] theorem portUp_roundTie : (portUp s).roundTie = s.roundTie := rfl
@[simp] theorem portUp_wire : (portUp s).wire = s.wire := rfl
@[simp] theorem portUp_disp : (portUp s).disp = s.disp := rfl
@[simp] theorem portUp_log : (portUp s).log = s.log := rfl
@[simp] theorem portUp_inb : (portUp s).inb = s.inb := rfl
@[simp] theorem portUp_devAttached : (portUp s).devAttached = s.devAttached := rfl
@[simp] theorem portUp_agenda : (portUp s).agenda = s.agenda := rfl
@[simp] theorem portUp_openScript : (portUp s).openScript = s.openScript := rfl
@[simp] theorem portUp_openDraws : (portUp s).openDraws = s.openDraws := rfl
@[simp] theorem portUp_txScript : (portUp s).txScript = s.txScript := rfl
@[simp] theorem portUp_txDraws : (portUp s).txDraws = s.txDraws := rfl
@[simp] theorem portUp_reads : (portUp s).reads = s.reads := rfl

/-! portDown -/

@[simp] theorem portDown_params : (portDown s).params = s.params := rfl
@[simp] theorem portDown_loop : (portDown s).loop = s.loop := rfl
@[simp] theorem portDown_tickPend : (portDown s).tickPend = s.tickPend := rfl
@[simp] theorem portDown_hcq : (portDown s).hcq = s.hcq := rfl
@[simp] theorem portDown_result : (portDown s).result = s.result := rfl
@[simp] theorem portDown_fatalCode : (portDown s).fatalCode = s.fatalCode := rfl
@[simp] theorem portDown_devFound : (portDown s).devFound = s.devFound := rfl
@[simp] theorem portDown_devPresent : (portDown s).devPresent = s.devPresent := rfl
@[simp] theorem portDown_devLost : (portDown s).devLost = s.devLost := rfl
@[simp] theorem portDown_nax : (portDown s).nax = s.nax := rfl
@[simp] theorem portDown_nbtn : (portDown s).nbtn = s.nbtn := rfl
@[simp] theorem portDown_nhat : (portDown s).nhat = s.nhat := rfl
@[simp] theorem portDown_liveAx : (portDown s).liveAx = s.liveAx := rfl
@[simp] theorem portDown_liveBtn : (portDown s).liveBtn = s.liveBtn := rfl
@[simp] theorem portDown_liveHat : (portDown s).liveHat = s.liveHat := rfl
@[simp] theorem portDown_evq : (portDown s).evq = s.evq := rfl
@[simp] theorem portDown_snapValid : (portDown s).snapValid = s.snapValid := rfl
@[simp] theorem portDown_snapEver : (portDown s).snapEver = s.snapEver := rfl
@[simp] theorem portDown_snapAx : (portDown s).snapAx = s.snapAx := rfl
@[simp] theorem portDown_snapBtn : (portDown s).snapBtn = s.snapBtn := rfl
@[simp] theorem portDown_snapHat : (portDown s).snapHat = s.snapHat := rfl
@[simp] theorem portDown_axout : (portDown s).axout = s.axout := rfl
@[simp] theorem portDown_flen : (portDown s).flen = s.flen := rfl
@[simp] theorem portDown_fbuf : (portDown s).fbuf = s.fbuf := rfl
@[simp] theorem portDown_port : (portDown s).port = false := rfl
@[simp] theorem portDown_txResult : (portDown s).txResult = s.txResult := rfl
@[simp] theorem portDown_rxq : (portDown s).rxq = [] := rfl
@[simp] theorem portDown_baud : (portDown s).baud = s.baud := rfl
@[simp] theorem portDown_wtoMs : (portDown s).wtoMs = s.wtoMs := rfl
@[simp] theorem portDown_periodMs : (portDown s).periodMs = s.periodMs := rfl
@[simp] theorem portDown_roundTie : (portDown s).roundTie = s.roundTie := rfl
@[simp] theorem portDown_wire : (portDown s).wire = s.wire := rfl
@[simp] theorem portDown_disp : (portDown s).disp = s.disp := rfl
@[simp] theorem portDown_log : (portDown s).log = s.log := rfl
@[simp] theorem portDown_inb : (portDown s).inb = s.inb := rfl
@[simp] theorem portDown_devAttached : (portDown s).devAttached = s.devAttached := rfl
@[simp] theorem portDown_agenda : (portDown s).agenda = s.agenda := rfl
@[simp] theorem portDown_openScript : (portDown s).openScript = s.openScript := rfl
@[simp] theorem portDown_openDraws : (portDown s).openDraws = s.openDraws := rfl
@[simp] theorem portDown_txScript : (portDown s).txScript = s.txScript := rfl
@[simp] theorem portDown_txDraws : (portDown s).txDraws = s.txDraws := rfl
@[simp] theorem portDown_reads : (portDown s).reads = s.reads := rfl

end

end Sys2Proof.Machine
end

