-- ==== Sys2Proof/Laws/Ops.lean ====
section
/-! SUPPORT. For each shared operation, once, everything it can do. Proofs cite these instead of
unfolding the operations. -/

namespace Sys2Proof.Machine

/-! ### Ending an action -/

/-- What `fail` writes: the result, and a LOG record if the code is logged. -/
theorem fail_eq (c : ResultCode) (op : Byte) (s : State) :
    fail c op s = { s with
      result := codeByte c
      log := s.log ++ if isLogged c then [{ code := codeByte c, op := op }] else [] } := by
  cases c <;> simp [fail, isLogged, done, emitLog]

/-- The legality check: the command's rule in a legal loop state, BadState in another one, and never a
next state where `LOOP` is 3. -/
theorem whenLegal_cases {legal : BitVec 2 → Bool} {op : Byte} {act : State → State} {s t : State}
    (h : whenLegal legal op act s = .next t) :
    s.loop ≠ 3#2 ∧
      ((legal s.loop = true ∧ t = act s) ∨ (legal s.loop = false ∧ t = fail .badState op s)) := by
  unfold whenLegal loopNeverHeld at h
  split at h
  · cases h
  · split at h <;> cases h <;> simp_all

theorem whenLegal_legal {legal : BitVec 2 → Bool} (op : Byte) (act : State → State) {s : State}
    (h3 : s.loop ≠ 3#2) (h : legal s.loop = true) : whenLegal legal op act s = .next (act s) := by
  simp [whenLegal, loopNeverHeld, h3, h]

theorem whenLegal_illegal {legal : BitVec 2 → Bool} (op : Byte) (act : State → State) {s : State}
    (h3 : s.loop ≠ 3#2) (h : legal s.loop = false) :
    whenLegal legal op act s = .next (fail .badState op s) := by
  simp [whenLegal, loopNeverHeld, h3, h]

theorem legalAlways_iff (l : BitVec 2) : legalAlways l = true ↔ l ≠ 3#2 := by
  revert l; decide

theorem legalIdle_iff (l : BitVec 2) : legalIdle l = true ↔ l = 0#2 := by
  revert l; decide

theorem legalTicking_iff (l : BitVec 2) : legalTicking l = true ↔ l = 1#2 := by
  revert l; decide

/-! ### Numbers at a register's width -/

/-- A number the width holds is held as it is; of a wider one nothing is known. -/
theorem atWidth_of_lt {w n : Nat} (addr : Byte) (h : n < 2 ^ w) : atWidth w addr n = BitVec.ofNat w n := by
  simp [atWidth, h]

theorem toNat_atWidth {w n : Nat} (addr : Byte) (h : n < 2 ^ w) : (atWidth w addr n).toNat = n := by
  rw [atWidth_of_lt addr h, BitVec.toNat_ofNat, Nat.mod_eq_of_lt h]

/-! ### The snapshot unit -/

/-- One record writes at most one live register or the device bits; it leaves everything else. -/
theorem applyRecord_frame (s : State) (e : EventWord) :
    applyRecord s e = { s with
      liveAx := (applyRecord s e).liveAx
      liveBtn := (applyRecord s e).liveBtn
      liveHat := (applyRecord s e).liveHat
      devPresent := (applyRecord s e).devPresent
      devLost := (applyRecord s e).devLost } := by
  unfold applyRecord writeLiveAxis writeLiveButton writeLiveHat loseDevice
  repeat' split
  all_goals rfl

/-- Every record of a drain keeps what `applyRecord_frame` says it keeps. -/
theorem foldl_applyRecord_frame (q : List EventWord) (s : State) :
    q.foldl applyRecord s = { s with
      liveAx := (q.foldl applyRecord s).liveAx
      liveBtn := (q.foldl applyRecord s).liveBtn
      liveHat := (q.foldl applyRecord s).liveHat
      devPresent := (q.foldl applyRecord s).devPresent
      devLost := (q.foldl applyRecord s).devLost } := by
  induction q generalizing s with
  | nil => rfl
  | cons e q ih =>
    simp only [List.foldl_cons]
    rw [ih (applyRecord s e), applyRecord_frame s e]

/-- A property of states that every record keeps is kept by all records of a drain. -/
theorem foldl_applyRecord_induct {P : State → Prop} (step : ∀ s e, P s → P (applyRecord s e))
    (q : List EventWord) (s : State) (h : P s) : P (q.foldl applyRecord s) := by
  induction q generalizing s with
  | nil => exact h
  | cons e q ih => exact ih _ (step s e h)

/-- SAMPLE: a capture, or the null snapshot with the code of the device's state. -/
theorem sampleOp_cases (op : Byte) (s : State) :
    ((drain s).devPresent = true ∧ sampleOp op s = done .ok (capture (drain s))) ∨
    ((drain s).devPresent = false ∧ (drain s).devLost = true ∧
      sampleOp op s = fail .deviceDisconnected op (clearValid (drain s))) ∨
    ((drain s).devPresent = false ∧ (drain s).devLost = false ∧
      sampleOp op s = fail .deviceNotFound op (clearValid (drain s))) := by
  unfold sampleOp
  cases hp : (drain s).devPresent <;> cases hl : (drain s).devLost <;> simp [hp, hl]

/-! ### The frame packer -/

/-- ENCODE: no snapshot, too few inputs, or the frame of the snapshot. -/
theorem encodeOp_cases (op : Byte) (s : State) :
    (s.snapValid = false ∧ encodeOp op s = done .nullSnapshot (dropFrame s)) ∨
    (s.snapValid = true ∧ (s.nax.toNat < 5 ∨ s.nbtn.toNat < 10) ∧
      encodeOp op s = fail .unsupportedDevice op (dropFrame s)) ∨
    (s.snapValid = true ∧ 5 ≤ s.nax.toNat ∧ 10 ≤ s.nbtn.toNat ∧
      encodeOp op s = done .ok (assembleMotor (frameOfSnapshot s) s)) := by
  unfold encodeOp minAx minBtn
  cases hv : s.snapValid
  · simp
  · by_cases h : s.nax.toNat < 5 ∨ s.nbtn.toNat < 10
    · simp [h]
    · rw [not_or, not_lt, not_lt] at h
      simp [h.1, h.2]

/-! ### The transmitter -/

/-- The transmit oracle answers in 0..n. -/
theorem txAnswer_bound (s : State) (n : Nat) : txAnswer s n < n + 1 := by
  unfold txAnswer
  split
  · omega
  · exact (Config.txOracle n s.txDraws).isLt

/-- SEND: the port closed, no frame, the whole frame, or a proper prefix of it. -/
theorem sendOp_cases (op : Byte) (s : State) :
    (s.port = false ∧ sendOp op s = fail .notOpen op (setTxResult .notOpen (dropFrame s))) ∨
    (s.port = true ∧ s.flen = 0#5 ∧ sendOp op s = done .noFrame (setTxResult .noFrame s)) ∨
    (s.port = true ∧ s.flen ≠ 0#5 ∧ txAnswer s s.flen.toNat = s.flen.toNat ∧
      sendOp op s = done .ok (setTxResult .ok
        (dropFrame (emitWire (bufferBytes s s.flen.toNat) (drawTx s))))) ∨
    (s.port = true ∧ s.flen ≠ 0#5 ∧ txAnswer s s.flen.toNat < s.flen.toNat ∧
      sendOp op s = fail .writeTimeout op (setTxResult .writeTimeout
        (dropFrame (emitWire (bufferBytes s (txAnswer s s.flen.toNat)) (drawTx s))))) := by
  unfold sendOp
  cases hp : s.port
  · simp
  · by_cases hf : s.flen = 0#5
    · simp [hf]
    · by_cases hk : txAnswer s s.flen.toNat = s.flen.toNat
      · simp [hf, hk]
      · have := txAnswer_bound s s.flen.toNat
        have hlt : txAnswer s s.flen.toNat < s.flen.toNat := by omega
        simp [hf, hk, hlt]

/-- OPEN: already open, opened, or refused with one of the two fatal codes. -/
theorem openOp_cases (op : Byte) (s : State) :
    (s.port = true ∧ openOp op s = fail .badState op s) ∨
    (s.port = false ∧ openAnswer s = .ok ∧ openOp op s = done .ok (portUp (drawOpen s))) ∨
    (s.port = false ∧ openAnswer s = .portUnavailable ∧
      openOp op s = openFailed .portUnavailable op (drawOpen s)) ∨
    (s.port = false ∧ openAnswer s = .permissionDenied ∧
      openOp op s = openFailed .permissionDenied op (drawOpen s)) := by
  unfold openOp
  cases hp : s.port <;> cases ho : openAnswer s <;> simp

/-- POLL_INBOUND: the port closed, or the whole queue. -/
theorem pollInboundOp_cases (op : Byte) (s : State) :
    (s.port = false ∧ pollInboundOp op s = fail .notOpen op (emitInbound [] s)) ∨
    (s.port = true ∧ pollInboundOp op s = done .ok (clearInbound (emitInbound s.rxq s))) := by
  unfold pollInboundOp
  cases s.port <;> simp

/-- A line with no character rests at mark. -/
theorem lineSignal_nil (after : Nat) : lineSignal [] after = List.replicate after true := rfl

/-- A line's first character: the rest before it, its levels, then the rest of the line. -/
theorem lineSignal_cons (r after : Nat) (b : Byte) (more : List (Nat × Byte)) :
    lineSignal ((r, b) :: more) after =
      List.replicate r true ++ lineLevels b ++ lineSignal more after := by
  simp [lineSignal, lineIdle, lineRest, List.append_assoc]

/-- Bytes sent with no rest: their characters one after another. -/
theorem lineWaveform_eq (bytes : List Byte) : lineWaveform bytes = bytes.flatMap lineLevels := by
  simp [lineWaveform, lineSignal, lineIdle, List.flatMap_map]

/-! ### The mapper and the sequencer -/

/-- A MAP command: an index past the capacity, or the conversion of the register. -/
theorem mapAxis_cases (op : Byte) (f : Bool → AxisWord → Nat) (index : Byte) (s : State) :
    (s.params.maxAx ≤ index.toNat ∧ mapAxis op f index s = fail .badIndex op s) ∨
    (index.toNat < s.params.maxAx ∧ mapAxis op f index s =
      done .ok (setAxout (f s.roundTie (snapAxis s index.toNat)) s)) := by
  unfold mapAxis
  by_cases h : s.params.maxAx ≤ index.toNat
  · simp [h]
  · simp [h, Nat.lt_of_not_le h]

/-- START: an open port kept, a port opened, or the fatal path. -/
theorem startOp_cases (s : State) :
    (s.port = true ∧ startOp s = done .ok (enterTicking s)) ∨
    (s.port = false ∧ (openOp opStart s).loop = loopShutdown ∧ startOp s = openOp opStart s) ∨
    (s.port = false ∧ (openOp opStart s).loop ≠ loopShutdown ∧
      startOp s = done .ok (enterTicking (openOp opStart s))) := by
  unfold startOp
  cases hp : s.port
  · by_cases h : (openOp opStart s).loop = loopShutdown <;> simp [h]
  · simp

/-- QUIT: no effect once in SHUTDOWN, else the shutdown. -/
theorem quitOp_cases (s : State) :
    (s.loop = loopShutdown ∧ quitOp s = done .ok s) ∨
    (s.loop ≠ loopShutdown ∧ quitOp s = done .ok (enterShutdown s)) := by
  unfold quitOp
  by_cases h : s.loop = loopShutdown <;> simp [h]

/-! ### The agents -/

/-- A host word: the instruction it decodes to, or IllegalCommand. -/
theorem execWord_cases (w : CommandWord) (s : State) :
    (∃ i, decodeHostWord w = .ok i ∧ execWord w s = exec i s) ∨
    ((∃ e, decodeHostWord w = .error e) ∧ execWord w s = .next (fail .illegalCommand (opField w) s)) := by
  unfold execWord
  cases decodeHostWord w <;> simp

/-- SEQ: the head of the queue, a due tick, or no step. -/
theorem seqStep_cases (s : State) :
    (∃ w rest, s.hcq = w :: rest ∧ seqStep s = execWord w { s with hcq := rest }) ∨
    (s.hcq = [] ∧ tickDue s = true ∧ seqStep s = exec .tick s) ∨
    (s.hcq = [] ∧ tickDue s = false ∧ seqStep s = .next s) := by
  unfold seqStep
  split
  · rename_i w rest h; exact .inl ⟨w, rest, h, rfl⟩
  · rename_i h
    cases tickDue s <;> simp [h]

theorem tickDue_iff (s : State) : tickDue s = true ↔ s.loop = 1#2 ∧ s.tickPend ≠ 0#16 := by
  simp [tickDue, loopTicking]

/-- One step of the machine: SEQ, or the agent the agenda names. -/
theorem step_cases (s : State) :
    step s = seqStep s ∨ ∃ a rest, s.agenda = a :: rest ∧ step s = agentStep a { s with agenda := rest } := by
  unfold step nextStep
  split
  · exact .inl rfl
  · rename_i a rest h
    split
    · exact .inl rfl
    · exact .inr ⟨a, rest, h, rfl⟩

end Sys2Proof.Machine
end

