-- ==== Sys2Proof/Laws/PerInstr.lean ====
section
/-! SUPPORT. Statements for all instructions, made per instruction. Family RoundTrip: decoding an
instruction's encoding gives it back. -/

namespace Sys2Proof.Laws

theorem toNat_commandOf (op arg : Byte) : (commandOf op arg).toNat = op.toNat * 2 ^ 8 + arg.toNat := by
  have h : (commandOf op arg).toNat = op.toNat <<< 8 ||| arg.toNat := BitVec.toNat_append op arg
  rw [h, ← Nat.shiftLeft_add_eq_or_of_lt arg.isLt, Nat.shiftLeft_eq]

theorem opField_commandOf (op arg : Byte) : opField (commandOf op arg) = op := by
  apply BitVec.eq_of_toNat_eq
  simp only [opField, BitVec.extractLsb'_toNat, toNat_commandOf, Nat.shiftRight_eq_div_pow]
  have := arg.isLt
  have := op.isLt
  omega

theorem argField_commandOf (op arg : Byte) : argField (commandOf op arg) = arg := by
  apply BitVec.eq_of_toNat_eq
  simp only [argField, BitVec.extractLsb'_toNat, toNat_commandOf, Nat.shiftRight_eq_div_pow]
  have := arg.isLt
  omega

theorem toNat_eventOf (etype index : Byte) (value : BitVec 64) :
    (eventOf etype index value).toNat = etype.toNat * 2 ^ 72 + index.toNat * 2 ^ 64 + value.toNat := by
  have h : (eventOf etype index value).toNat =
      (etype.toNat <<< 8 ||| index.toNat) <<< 64 ||| value.toNat := by
    rw [← BitVec.toNat_append etype index]
    exact BitVec.toNat_append (etype ++ index) value
  rw [h, ← Nat.shiftLeft_add_eq_or_of_lt value.isLt, ← Nat.shiftLeft_add_eq_or_of_lt index.isLt]
  simp only [Nat.shiftLeft_eq]
  omega

theorem etypeField_eventOf (etype index : Byte) (value : BitVec 64) :
    etypeField (eventOf etype index value) = etype := by
  apply BitVec.eq_of_toNat_eq
  simp only [etypeField, BitVec.extractLsb'_toNat, toNat_eventOf, Nat.shiftRight_eq_div_pow]
  have := index.isLt
  have := value.isLt
  have := etype.isLt
  omega

theorem indexField_eventOf (etype index : Byte) (value : BitVec 64) :
    indexField (eventOf etype index value) = index := by
  apply BitVec.eq_of_toNat_eq
  simp only [indexField, BitVec.extractLsb'_toNat, toNat_eventOf, Nat.shiftRight_eq_div_pow]
  have := index.isLt
  have := value.isLt
  omega

theorem valueField_eventOf (etype index : Byte) (value : BitVec 64) :
    valueField (eventOf etype index value) = value := by
  apply BitVec.eq_of_toNat_eq
  simp only [valueField, BitVec.extractLsb'_toNat, toNat_eventOf, Nat.shiftRight_eq_div_pow]
  have := value.isLt
  omega

end Sys2Proof.Laws

/-- The encoding of a well-formed instruction decodes to it. -/
def Sys2Proof.Laws.RoundTrip.Statement (i : Sys2Proof.Instr) : Prop :=
  i.wellFormed = true → Sys2Proof.decode (Sys2Proof.encode i) = .ok i

namespace Sys2Proof.Laws.RoundTrip

theorem nop : Statement .nop := fun _ => by decide

theorem start : Statement .start := fun _ => by decide

theorem quit : Statement .quit := fun _ => by decide

theorem resetReq : Statement .resetReq := fun _ => by decide

theorem tick : Statement .tick := fun _ => by decide

theorem pollInbound : Statement .pollInbound := fun _ => by decide

theorem sample : Statement .sample := fun _ => by decide

theorem encode : Statement .encode := fun _ => by decide

theorem encodeReset : Statement .encodeReset := fun _ => by decide

theorem send : Statement .send := fun _ => by decide

theorem openPort : Statement .openPort := fun _ => by decide

theorem closePort : Statement .closePort := fun _ => by decide

theorem mapSym (index : Byte) : Statement (.mapSym index) := fun _ => by
  simp [Sys2Proof.encode, decode, decodeCommand, opField_commandOf, argField_commandOf, indexedCommand]

theorem mapSymInv (index : Byte) : Statement (.mapSymInv index) := fun _ => by
  simp [Sys2Proof.encode, decode, decodeCommand, opField_commandOf, argField_commandOf, indexedCommand]

theorem mapHalf (index : Byte) : Statement (.mapHalf index) := fun _ => by
  simp [Sys2Proof.encode, decode, decodeCommand, opField_commandOf, argField_commandOf, indexedCommand]

theorem axisMotion (index : Byte) (value : BitVec 64) : Statement (.axisMotion index value) := fun _ => by
  simp [Sys2Proof.encode, decode, decodeEvent, etypeField_eventOf, indexField_eventOf, valueField_eventOf]

theorem buttonDown (index : Byte) (value : BitVec 64) : Statement (.buttonDown index value) := fun _ => by
  simp [Sys2Proof.encode, decode, decodeEvent, etypeField_eventOf, indexField_eventOf, valueField_eventOf]

theorem buttonUp (index : Byte) (value : BitVec 64) : Statement (.buttonUp index value) := fun _ => by
  simp [Sys2Proof.encode, decode, decodeEvent, etypeField_eventOf, indexField_eventOf, valueField_eventOf]

theorem hatMotion (index : Byte) (value : BitVec 64) : Statement (.hatMotion index value) := fun _ => by
  simp [Sys2Proof.encode, decode, decodeEvent, etypeField_eventOf, indexField_eventOf, valueField_eventOf]

theorem deviceRemoved (index : Byte) (value : BitVec 64) : Statement (.deviceRemoved index value) := fun _ => by
  simp [Sys2Proof.encode, decode, decodeEvent, etypeField_eventOf, indexField_eventOf, valueField_eventOf]

theorem motorFrame (frame : MotorFrame) : Statement (.motorFrame frame) := fun h => by
  have hw : frame.wellFormed = true := h
  simp [Sys2Proof.encode, decode, decodeFrame, MotorFrame.payload, MotorFrame.axisBytes,
    MotorFrame.buttonBytes, motorPayload, hw]

theorem resetFrame : Statement .resetFrame := fun _ => by decide

end Sys2Proof.Laws.RoundTrip
end

