-- ==== Sys2Proof/Tests/Slice0.lean ====
section
/-! SUPPORT. The model's own tests. Expected values are those of spec/95_test_vectors.md, of the worked
examples of the rules named, or read off the encoding tables of spec/30_encoding.md by hand. -/

namespace Sys2Proof.Tests

open Sys2Proof.Machine

/-! One theorem at a time: each holds a thread of its own while the kernel evaluates it. -/
set_option Elab.async false

/-! ### States and observers -/

/-- A controller `Present(na, nb, nh)` at reset. -/
def withDevice (na nb nh : Nat) : State :=
  State.resetWith { Params.default with deviceAtReset := .present na nb nh }

def absent : State := State.resetWith { Params.default with deviceAtReset := .absent }
def idle : State := withDevice 6 11 1
def idleOpen : State := { idle with port := true }
def ticking : State := { idleOpen with loop := 1#2, tickPend := 1#16 }
def shut : State := { idle with loop := 2#2, devPresent := false, devAttached := false }

/-- Right after reset with one word, and NOP behind it, in the queue. -/
def withWord (w : CommandWord) : State := { idle with hcq := [w, 0x0000#16] }

/-- The state an outcome leads to, and what a field of it holds. -/
def after (o : Host.Outcome State Fault Refusal) : Option State :=
  match o with
  | .next t => some t
  | .fault _ => none
  | .refused _ => none

def seen {α : Type} (f : State → α) (o : Host.Outcome State Fault Refusal) : Option α := (after o).map f

/-- What the host and the wire see of a step: the result, the last log record, what the wire gained. -/
def codeAndLog (t : State) : Byte × Option (Byte × Byte) :=
  (t.result, t.log.getLast?.map (fun r => (r.code, r.op)))

/-- The frame of scenario A (source section 8). -/
def scenarioA : MotorFrame where
  leftY := 0#8
  axis0 := 50#8
  axis4Inv := 50#8
  axis3 := 50#8
  axis2 := 50#8
  btnA := 0#8
  btnB := 0#8
  btnX := 0#8
  btnY := 0#8
  btnLB := 0#8
  btnRB := 0#8
  btnBack := 0#8
  btnStart := 0#8
  btnLStick := 0#8
  btnRStick := 0#8
  dpad := 0#8

def bytesA : List Byte :=
  [250#8, 0#8, 50#8, 50#8, 50#8, 50#8, 0#8, 0#8, 0#8, 0#8, 0#8, 0#8, 0#8, 0#8, 0#8, 0#8, 0#8]

/-! ### WellFormed refuses (30_encoding.md R101) -/

theorem test_wf_scenarioA : (Instr.motorFrame scenarioA).wellFormed = true := by decide
theorem test_wf_refuses_axis_101 :
    (Instr.motorFrame { scenarioA with axis3 := 101#8 }).wellFormed = false := by decide
theorem test_wf_refuses_button_2 :
    (Instr.motorFrame { scenarioA with btnRStick := 2#8 }).wellFormed = false := by decide
theorem test_wf_refuses_dpad :
    (Instr.motorFrame { scenarioA with dpad := 1#8 }).wellFormed = false := by decide

/-! ### Decoding: each constructor's word written out from 30_encoding.md R86, R87, R96, R97, R101, R102 -/

theorem test_decode_nop : decodeHostWord 0b0000000000000000#16 = .ok .nop := by decide
theorem test_decode_start : decodeHostWord 0b0000000100000000#16 = .ok .start := by decide
theorem test_decode_quit : decodeHostWord 0b0000001000000000#16 = .ok .quit := by decide
theorem test_decode_resetReq : decodeHostWord 0b0000001100000000#16 = .ok .resetReq := by decide
theorem test_decode_tick : decodeCommand 0b0000010000000000#16 = .ok .tick ∧
    decodeHostWord 0b0000010000000000#16 = .error .tickFromHost := by decide
theorem test_decode_pollInbound : decodeHostWord 0b0000100000000000#16 = .ok .pollInbound := by decide
theorem test_decode_mapSym : decodeHostWord 0b0000100100000100#16 = .ok (.mapSym 4#8) := by decide
theorem test_decode_mapSymInv : decodeHostWord 0b0000101011111111#16 = .ok (.mapSymInv 255#8) := by decide
theorem test_decode_mapHalf : decodeHostWord 0b0000101100000001#16 = .ok (.mapHalf 1#8) := by decide
theorem test_decode_sample : decodeHostWord 0b0001000000000000#16 = .ok .sample := by decide
theorem test_decode_encode : decodeHostWord 0b0001000100000000#16 = .ok .encode := by decide
theorem test_decode_encodeReset : decodeHostWord 0b0001001000000000#16 = .ok .encodeReset := by decide
theorem test_decode_send : decodeHostWord 0b0001001100000000#16 = .ok .send := by decide
theorem test_decode_open : decodeHostWord 0b0001010000000000#16 = .ok .openPort := by decide
theorem test_decode_close : decodeHostWord 0b0001010100000000#16 = .ok .closePort := by decide
theorem test_decode_reserved : decodeHostWord 0b0001011000000000#16 = .error (.reservedOpcode 0x16#8) ∧
    decodeHostWord 0b0000000000000001#16 = .error (.nonzeroArg 0x00#8 0x01#8) := by decide
theorem test_decode_axisMotion : decodeEvent 0x0101BFF0000000000000#80 =
    .ok (.axisMotion 1#8 0xBFF0000000000000#64) := by decide
theorem test_decode_buttonDown : decodeEvent 0x02090000000000000000#80 = .ok (.buttonDown 9#8 0#64) := by
  decide
theorem test_decode_buttonUp : decodeEvent 0x03090000000000000001#80 = .ok (.buttonUp 9#8 1#64) := by
  decide
theorem test_decode_hatMotion : decodeEvent 0x04000000000000000003#80 = .ok (.hatMotion 0#8 3#64) := by
  decide
theorem test_decode_deviceRemoved : decodeEvent 0x05000000000000000000#80 =
    .ok (.deviceRemoved 0#8 0#64) := by decide
theorem test_decode_unassigned : decodeEvent 0x06003FF0000000000000#80 = .error (.unassignedEvent 6#8) := by
  decide
theorem test_decode_motorFrame : decodeFrame bytesA = .ok (.motorFrame scenarioA) := by decide
theorem test_decode_resetFrame : decodeFrame [0b11111011#8] = .ok .resetFrame ∧
    decodeFrame [251#8, 0#8] = .error .frameLength ∧ decodeFrame [249#8] = .error .unknownFrameHead := by
  decide
/-- The assembly examples of 30_encoding.md R108 and of program P1. -/
theorem test_assembly : (Instr.mapSym 4#8).assembly = "MAP_SYM 4" ∧
    (Instr.hatMotion 0#8 3#64).assembly = "ev HAT_MOTION 0, 3" ∧
    (Instr.motorFrame scenarioA).assembly = "[250,0,50,50,50,50,0,0,0,0,0,0,0,0,0,0,0]" := by
  decide +kernel

/-! ### The mapper vectors M1 to M37 and H1 to H28: word, then the values under HALF_EVEN and HALF_AWAY -/

def symVectors : List (BitVec 64 × Nat × Nat × Nat × Nat) :=
  [(0x0000000000000000#64, 50, 50, 50, 50), (0x8000000000000000#64, 50, 50, 50, 50),
   (0x3FF0000000000000#64, 100, 100, 0, 0), (0xBFF0000000000000#64, 0, 0, 100, 100),
   (0x3FE0000000000000#64, 75, 75, 25, 25), (0xBFE0000000000000#64, 25, 25, 75, 75),
   (0x3FD0000000000000#64, 62, 63, 38, 38), (0xBFD0000000000000#64, 38, 38, 62, 63),
   (0x3FE8000000000000#64, 88, 88, 12, 13), (0xBFE8000000000000#64, 12, 13, 88, 88),
   (0x3F847AE147AE147B#64, 50, 51, 50, 50), (0xBF847AE147AE147B#64, 50, 50, 50, 51),
   (0x3F947AE147AE147B#64, 51, 51, 49, 49), (0x3FB999999999999A#64, 55, 55, 45, 45),
   (0xBFB999999999999A#64, 45, 45, 55, 55), (0x3FD3333333333333#64, 65, 65, 35, 35),
   (0x3FEFF7CED916872B#64, 100, 100, 0, 0), (0xBFEFF7CED916872B#64, 0, 0, 100, 100),
   (0x3FD5555555555555#64, 67, 67, 33, 33), (0xBFD5555555555555#64, 33, 33, 67, 67)]

def symVectorsMore : List (BitVec 64 × Nat × Nat × Nat × Nat) :=
  [(0xBFEF95810624DD2F#64, 1, 1, 99, 99), (0x3FBF7CED916872B0#64, 56, 56, 44, 44),
   (0xBFEB333333333333#64, 7, 7, 92, 93), (0x3FEB333333333333#64, 92, 93, 7, 7),
   (0x3FB70A3D70A3D70A#64, 54, 54, 45, 45), (0xBFB70A3D70A3D70A#64, 45, 45, 54, 54),
   (0x3FF0000000000001#64, 100, 100, 0, 0), (0x4000000000000000#64, 100, 100, 0, 0),
   (0xC000000000000000#64, 0, 0, 100, 100), (0xC008000000000000#64, 0, 0, 100, 100),
   (0x7FE1CCF385EBC8A0#64, 100, 100, 0, 0), (0xFFE1CCF385EBC8A0#64, 0, 0, 100, 100),
   (0x7FF0000000000000#64, 100, 100, 0, 0), (0xFFF0000000000000#64, 0, 0, 100, 100),
   (0x0000000000000001#64, 50, 50, 50, 50), (0x3BC79CA10C924223#64, 50, 50, 50, 50),
   (0x7FF8000000000000#64, 50, 50, 50, 50)]

def halfVectors : List (BitVec 64 × Nat × Nat) :=
  [(0xBFF0000000000000#64, 100, 100), (0xBFE0000000000000#64, 50, 50), (0xBFD0000000000000#64, 25, 25),
   (0xBFE8000000000000#64, 75, 75), (0xBF847AE147AE147B#64, 1, 1), (0xBF747AE147AE147B#64, 0, 1),
   (0xBF8EB851EB851EB8#64, 2, 2), (0xBF9999999999999A#64, 2, 3), (0xBFC0000000000000#64, 12, 13),
   (0xBFEFD70A3D70A3D7#64, 100, 100), (0xBFEFCED916872B02#64, 99, 99), (0xBFEFF7CED916872B#64, 100, 100),
   (0xBF70624DD2F1A9FC#64, 0, 0), (0xBF789374BC6A7EFA#64, 1, 1), (0xBFD5555555555555#64, 33, 33),
   (0xBFEF95810624DD2F#64, 99, 99), (0xBFD3333333333333#64, 30, 30), (0xBFB999999999999A#64, 10, 10),
   (0xBFF0000000000001#64, 100, 100), (0xC000000000000000#64, 100, 100), (0xFFF0000000000000#64, 100, 100),
   (0x8000000000000001#64, 0, 0), (0x0000000000000000#64, 0, 0), (0x8000000000000000#64, 0, 0),
   (0x3FE0000000000000#64, 0, 0), (0x3FF0000000000000#64, 0, 0), (0x7FF0000000000000#64, 0, 0),
   (0x7FF8000000000000#64, 0, 0)]

def symVectorHolds (r : BitVec 64 × Nat × Nat × Nat × Nat) : Bool :=
  sym false r.1 == r.2.1 && sym true r.1 == r.2.2.1 &&
  symInv false r.1 == r.2.2.2.1 && symInv true r.1 == r.2.2.2.2

theorem test_sym_vectors : symVectors.all symVectorHolds = true := by decide +kernel
theorem test_sym_vectors_more : symVectorsMore.all symVectorHolds = true := by decide +kernel
theorem test_half_vectors :
    halfVectors.all (fun r => half false r.1 == r.2.1 && half true r.1 == r.2.2) = true := by
  decide +kernel

/-! ### One step each -/

/-- Vector Q10. -/
theorem test_nop : seen codeAndLog (exec .nop { ticking with result := 5#8 }) = some (0x00#8, none) := by
  decide +kernel

/-- Vector K1, with the frame of an IDLE micro-operation dropped. -/
theorem test_start : seen (fun t => (t.port, t.loop, t.tickPend, t.flen, t.result))
    (exec .start { idle with openScript := [.ok], flen := 17#5 }) =
    some (true, 1#2, 0#16, 0#5, 0x00#8) := by decide +kernel

/-- Vector K3. -/
theorem test_start_fatal : seen (fun t => (t.loop, t.fatalCode, codeAndLog t))
    (exec .start { idle with openScript := [.portUnavailable] }) =
    some (2#2, 0x03#8, 0x03#8, some (0x03#8, 0x01#8)) := by decide +kernel

/-- Vector K7. -/
theorem test_quit : seen (fun t => ((t.loop, t.port, t.devPresent), (t.evq, t.rxq), t.tickPend, t.flen))
    (exec .quit { ticking with evq := [0#80], rxq := [1#8], flen := 1#5 }) =
    some ((2#2, false, false), ([], []), 0#16, 0#5) := by decide +kernel

/-- Program P2 step 8. -/
theorem test_resetReq : seen (fun t => (t.wire, t.fbuf.toList.head?, t.flen, t.result, t.tickPend))
    (exec .resetReq { ticking with tickPend := 2#16, txScript := [1] }) =
    some ([251#8], some 251#8, 0#5, 0x00#8, 2#16) := by decide +kernel

/-- Vector K6. -/
theorem test_resetReq_timeout : seen (fun t => (t.wire, t.loop, codeAndLog t))
    (exec .resetReq { ticking with txScript := [0] }) =
    some ([], 1#2, 0x05#8, some (0x05#8, 0x03#8)) := by decide +kernel

/-- R231's worked example. -/
theorem test_tick : seen (fun t => (t.wire, t.disp.map displayTag, t.tickPend, t.result))
    (exec .tick { ticking with txScript := [17] }) = some (bytesA, [0#2], 0#16, 0x00#8) := by
  decide +kernel

/-- Vector Q9. -/
theorem test_tick_absent : seen (fun t => (t.wire, t.disp, codeAndLog t))
    (exec .tick { absent with loop := 1#2, port := true, tickPend := 1#16 }) =
    some ([], [.none], 0x01#8, some (0x01#8, 0x04#8)) := by decide +kernel

/-- Vectors T12 and T14. -/
theorem test_pollInbound : seen (fun t => (t.inb, t.rxq, t.result))
    (exec .pollInbound { idleOpen with rxq := [0x41#8, 0x0A#8] }) =
    some ([[0x41#8, 0x0A#8]], [], 0x00#8) := by decide +kernel
theorem test_pollInbound_closed : seen (fun t => (t.inb, codeAndLog t)) (exec .pollInbound idle) =
    some ([[]], 0x12#8, some (0x12#8, 0x08#8)) := by decide +kernel

/-- Vectors X3 and X4. -/
theorem test_mapSym : seen (fun t => (t.axout, t.result))
    (exec (.mapSym 0#8) { idle with snapAx := idle.snapAx.set 0 0x3FD0000000000000#64 }) =
    some (62#8, 0x00#8) := by decide +kernel
theorem test_mapSym_badIndex : seen (fun t => (t.axout, codeAndLog t))
    (exec (.mapSym 8#8) { idle with axout := 9#8 }) = some (9#8, 0x15#8, some (0x15#8, 0x09#8)) := by
  decide +kernel

/-- Vector X2. -/
theorem test_mapSymInv : seen (fun t => (t.axout, t.result))
    (exec (.mapSymInv 4#8) { idle with snapAx := idle.snapAx.set 4 0x3FE0000000000000#64 }) =
    some (25#8, 0x00#8) := by decide +kernel

/-- Vectors X1 and X8. -/
theorem test_mapHalf : seen (fun t => (t.axout, t.result))
    (exec (.mapHalf 1#8) { shut with snapAx := idle.snapAx.set 1 0xBFE8000000000000#64 }) =
    some (75#8, 0x00#8) := by decide +kernel

/-- Vector E3. -/
theorem test_sample : seen (fun t => (t.snapAx.head?, t.evq, t.snapValid, t.snapEver, t.result))
    (exec .sample { idle with evq := [0x01003FE0000000000000#80, 0x0100BFD0000000000000#80] }) =
    some (some 0xBFD0000000000000#64, [], true, true, 0x00#8) := by decide +kernel

/-- Vector E7. -/
theorem test_sample_lost :
    seen (fun t => ((t.liveAx.head?, t.snapAx.head?), (t.snapValid, t.devPresent, t.devLost), codeAndLog t))
    (exec .sample { idle with evq := [0x01003FE0000000000000#80, 0x05000000000000000000#80] }) =
    some ((some 0x3FE0000000000000#64, some 0#64), (false, false, true), 0x02#8, some (0x02#8, 0x10#8)) := by
  decide +kernel

/-- Vector F2. -/
theorem test_encode : seen (fun t => (t.fbuf.toList, t.flen, t.result))
    (exec .encode { idle with
      snapValid := true
      snapAx := [0x3FE0000000000000#64, 0xBFF0000000000000#64, 0x3FF0000000000000#64,
        0xBFD0000000000000#64, 0x3FE0000000000000#64, 0#64, 0#64, 0#64]
      snapBtn := true :: List.replicate 15 false
      snapHat := [3#4, 0#4, 0#4, 0#4] }) =
    some ([250#8, 100#8, 75#8, 25#8, 38#8, 100#8, 1#8] ++ List.replicate 10 0#8, 17#5, 0x00#8) := by
  decide +kernel

/-- Vector F8. -/
theorem test_encode_unsupported : seen (fun t => (t.flen, codeAndLog t))
    (exec .encode { withDevice 4 12 0 with snapValid := true, flen := 1#5 }) =
    some (0#5, 0x06#8, some (0x06#8, 0x11#8)) := by decide +kernel

/-- Vector F10. -/
theorem test_encodeReset : seen (fun t => (t.fbuf.toList, t.flen, t.result))
    (exec .encodeReset { idle with fbuf := motorCells scenarioA }) =
    some (251#8 :: bytesA.tail, 1#5, 0x00#8) := by decide +kernel

/-- Vectors T6 and T10. -/
theorem test_send_timeout : seen (fun t => ((t.wire, t.flen), t.txResult, codeAndLog t))
    (exec .send { idleOpen with fbuf := motorCells scenarioA, flen := 17#5, txScript := [5] }) =
    some (([250#8, 0#8, 50#8, 50#8, 50#8], 0#5), 0x05#8, 0x05#8, some (0x05#8, 0x13#8)) := by
  decide +kernel
theorem test_send_closed : seen (fun t => ((t.wire, t.flen), t.txResult, codeAndLog t))
    (exec .send { idle with flen := 1#5 }) =
    some (([], 0#5), 0x12#8, 0x12#8, some (0x12#8, 0x13#8)) := by decide +kernel

/-- Vectors T1 and T3. -/
theorem test_open : seen (fun t => (t.port, t.rxq, t.loop, t.result))
    (exec .openPort { idle with openScript := [.ok], rxq := [1#8] }) =
    some (true, [], 0#2, 0x00#8) := by decide +kernel
theorem test_open_denied : seen (fun t => (t.loop, t.fatalCode, codeAndLog t))
    (exec .openPort { idle with openScript := [.permissionDenied] }) =
    some (2#2, 0x04#8, 0x04#8, some (0x04#8, 0x14#8)) := by decide +kernel

/-- Vectors T11 and Q6. -/
theorem test_close : seen (fun t => (t.port, t.rxq, t.result))
    (exec .closePort { idleOpen with rxq := [1#8] }) = some (false, [], 0x00#8) := by decide +kernel
theorem test_close_ticking : seen (fun t => (t.port, codeAndLog t)) (exec .closePort ticking) =
    some (true, 0x13#8, some (0x13#8, 0x15#8)) := by decide +kernel

/-- R148, and vector E4. -/
theorem test_axisMotion : seen (fun t => t.liveAx[5]?)
    (exec (.axisMotion 5#8 0x7FF8000000000001#64) idle) = some (some 0x7FF8000000000001#64) := by
  decide +kernel
theorem test_axisMotion_beyond : seen (fun t => t.liveAx)
    (exec (.axisMotion 6#8 0x3FE0000000000000#64) idle) = some (List.replicate 8 0#64) := by decide +kernel

/-- R149 and R150, and vector E4. -/
theorem test_buttonDown : seen (fun t => (t.liveBtn[10]?, t.liveBtn[9]?))
    (exec (.buttonDown 10#8 0#64) idle) = some (some true, some false) := by decide +kernel
theorem test_buttonUp : seen (fun t => (t.liveBtn[0]?, t.liveBtn[1]?))
    (exec (.buttonUp 0#8 1#64) { idle with liveBtn := List.replicate 16 true }) =
    some (some false, some true) := by decide +kernel

/-- Vector E5. -/
theorem test_hatMotion : seen (fun t => t.liveHat) (exec (.hatMotion 0#8 8#64) idle) =
    some [8#4, 0#4, 0#4, 0#4] := by decide +kernel
theorem test_hatMotion_nine : seen (fun t => t.liveHat) (exec (.hatMotion 0#8 9#64) idle) =
    some [0#4, 0#4, 0#4, 0#4] := by decide +kernel

/-- R152. -/
theorem test_deviceRemoved : seen (fun t => (t.devPresent, t.devLost, t.devFound))
    (exec (.deviceRemoved 7#8 1#64) idle) = some (false, true, true) := by decide +kernel

/-- R101 and R102. -/
theorem test_motorFrame : seen (fun t => (t.fbuf.toList, t.flen)) (exec (.motorFrame scenarioA) idle) =
    some (bytesA, 17#5) := by decide +kernel
theorem test_resetFrame : seen (fun t => (t.fbuf.toList.take 2, t.flen)) (exec .resetFrame idle) =
    some ([251#8, 0#8], 1#5) := by decide +kernel

/-! ### The agents and the register space -/

/-- Vector K5: the host command before the due tick. -/
theorem test_step_host_first : seen (fun t => (t.wire, t.tickPend))
    (step { ticking with hcq := [0x0300#16], tickPend := 2#16, txScript := [1] }) =
    some ([251#8], 2#16) := by decide +kernel

/-- Vector K4. -/
theorem test_step_timer_saturates : seen (fun t => t.tickPend)
    (step { ticking with agenda := [.timer], tickPend := 65535#16 }) = some 65535#16 := by decide +kernel

/-- The device status read at the end of program P3. -/
theorem test_step_read : seen (fun t => t.reads)
    (step { shut with devLost := true, agenda := [.read 0x02#8] }) = some [⟨0x02#8, 6#64⟩] := by
  decide +kernel

/-- The line waveform of 250. -/
theorem test_line_250 : lineLevels 250#8 =
    [false, false, true, false, true, true, true, true, true, true] := by decide

/-- The waveform of 1, and the line at mark before and after it (R200). -/
theorem test_line_rests_at_mark : lineSignal [(2, 1#8)] 3 =
    [true, true] ++ [false, true, false, false, false, false, false, false, false, true] ++
      [true, true, true] := by decide

/-- A row of the opcode table is fetched and run right after reset. -/
theorem test_withFetchWord_motorFrame :
    seen (fun t => (t.fbuf.toList, t.flen)) (step (State.reset.withFetchWord 8 0xFA)) =
    some (250#8 :: List.replicate 16 0#8, 17#5) := by decide +kernel

/-! ### Witnesses: a concrete state and operands meeting the hypotheses of each statement, clause by clause -/

/-- A snapshot of the reset controller, everything released. -/
def sampled : State := { idle with snapValid := true, snapEver := true }

/-- A state well into a run: a frame on the wire, a device lost, its removal drained, a tick due. -/
def busy : State :=
  { ticking with
    devPresent := false, devLost := true, devAttached := false, snapEver := true, snapValid := false
    wire := bytesA, fbuf := motorCells scenarioA, rxq := [0x41#8], hcq := [0x0200#16], agenda := [.timer]
    log := [⟨0x02#8, 0x04#8⟩], disp := [.none], result := 0x02#8 }

theorem inv_busy : Inv busy := by
  constructor <;> decide +kernel

theorem inv_idle : Inv idle := by
  constructor <;> decide +kernel

theorem inv_shut : Inv { shut with evq := [], devLost := true, fatalCode := 0x03#8 } := by
  constructor <;> decide +kernel

theorem witness_DecodeOfEncodeIsIdentity : (Instr.motorFrame scenarioA).wellFormed = true := by decide

theorem witness_EncodeOfDecodeIsIdentity :
    decode (.event 0x05FF0000000000000001#80) = .ok (.deviceRemoved 255#8 1#64) := by decide

/-- Both ends of each reserved range, and TICK's opcode. -/
theorem witness_ReservedOpcodeIsIllegalCommand :
    idle.agenda = [] ∧ (withWord 0x0400#16).hcq = 0x0400#16 :: [0x0000#16] ∧
    ([0x0400#16, 0x0500#16, 0x0700#16].all fun w => 0x04 ≤ (opField w).toNat && (opField w).toNat ≤ 0x07) ∧
    ([0x0C00#16, 0x0F00#16].all fun w => 0x0C ≤ (opField w).toNat && (opField w).toNat ≤ 0x0F) ∧
    ([0x1600#16, 0xFFFF#16].all fun w => decide (0x16 ≤ (opField w).toNat)) := by decide

theorem witness_OperandRule :
    (withWord 0x1501#16).agenda = [] ∧ (withWord 0x1501#16).hcq = 0x1501#16 :: [0x0000#16] ∧
    (opField 0x1501#16).toNat ∈ [0x00, 0x01, 0x02, 0x03, 0x08, 0x10, 0x11, 0x12, 0x13, 0x14, 0x15] ∧
    argField 0x1501#16 ≠ 0#8 ∧
    idle.loop ≠ 3#2 ∧ idle.params.maxAx ≤ (8#8 : Byte).toNat := by decide

theorem witness_ArbitrationHostBeforeTick :
    { ticking with hcq := [0x0000#16] }.hcq = 0x0000#16 :: [] ∧
    ticking.hcq = [] ∧ ticking.loop = 1#2 ∧ ticking.tickPend ≠ 0#16 := by decide

theorem witness_StepRunsDecodedCommand :
    (withWord 0x0902#16).agenda = [] ∧ (withWord 0x0902#16).hcq = 0x0902#16 :: [0x0000#16] ∧
    decodeHostWord 0x0902#16 = .ok (.mapSym 2#8) := by decide

theorem witness_DrainRunsEachRecordInOrder :
    idle.evq = [] ∧
    decodeEvent 0x02090000000000000000#80 = .ok (.buttonDown 9#8 0#64) ∧
    (∃ t, exec (.buttonDown 9#8 0#64) { idle with evq := [] } = .next t) ∧
    decodeEvent 0x06090000000000000000#80 = .error (.unassignedEvent 6#8) :=
  ⟨rfl, by decide, ⟨_, rfl⟩, by decide⟩

/-- The counts at their minimum. -/
theorem witness_PackerRunsFrames :
    let s : State := { withDevice 5 10 0 with snapValid := true }
    s.loop = 0#2 ∧ s.snapValid = true ∧ 5 ≤ s.nax.toNat ∧ 10 ≤ s.nbtn.toNat := by decide

theorem witness_NopEffect : shut.loop ≠ 3#2 := by decide

theorem witness_StartEffect :
    (ticking.loop = 1#2 ∧ shut.loop = 2#2) ∧ (idleOpen.loop = 0#2 ∧ idleOpen.port = true) ∧
    (let s : State := { idle with openScript := [.ok] }
     s.loop = 0#2 ∧ s.port = false ∧ openAnswer s = .ok) ∧
    (let s : State := { idle with openScript := [.portUnavailable] }
     s.loop = 0#2 ∧ s.port = false ∧ openAnswer s = .portUnavailable) ∧
    (let s : State := { idle with openScript := [.permissionDenied] }
     s.loop = 0#2 ∧ s.port = false ∧ openAnswer s = .permissionDenied) := by decide

theorem witness_QuitEffect : shut.loop = 2#2 ∧ idle.loop = 0#2 ∧ ticking.loop = 1#2 := by decide

theorem witness_ResetReqEffect :
    (idle.loop = 0#2 ∧ shut.loop = 2#2) ∧
    (let s : State := { ticking with txScript := [1] }
     s.loop = 1#2 ∧ s.port = true ∧ txAnswer s 1 = 1) ∧
    (let s : State := { ticking with txScript := [0] }
     s.loop = 1#2 ∧ s.port = true ∧ txAnswer s 1 = 0) := by decide

/-- A tick due on the given controller, with the transmit oracle's answer. -/
def tickOn (s : State) (answer : Nat) : State :=
  { s with loop := 1#2, port := true, tickPend := 1#16, txScript := [answer] }

/-- The state a tick's drain leads to. -/
def drained (s : State) : State := drain { s with tickPend := s.tickPend - 1#16 }

/-- The tick outcomes, at the boundary counts 4 axes, 9 buttons, and the boundary answers 0, 16, 17. -/
theorem witness_TickEffect :
    (ticking.agenda = [] ∧ ticking.hcq = [] ∧ ticking.loop = 1#2 ∧ ticking.tickPend ≠ 0#16) ∧
    (busy.tickPend ≠ 0#16 ∧ (drained busy).devPresent = false ∧ (drained busy).devLost = true) ∧
    (let s := tickOn absent 0
     s.tickPend ≠ 0#16 ∧ (drained s).devPresent = false ∧ (drained s).devLost = false) ∧
    ([withDevice 4 10 0, withDevice 5 9 0].all fun d =>
      let s := tickOn d 0
      s.tickPend != 0#16 && (drained s).devPresent &&
        (decide (s.nax.toNat < 5) || decide (s.nbtn.toNat < 10))) ∧
    (let s := tickOn (withDevice 5 10 0) 17
     s.tickPend ≠ 0#16 ∧ (drained s).devPresent = true ∧ 5 ≤ s.nax.toNat ∧ 10 ≤ s.nbtn.toNat ∧
       s.port = true ∧ txAnswer s 17 = 17) ∧
    ([0, 16].all fun k =>
      let s := tickOn (withDevice 5 10 0) k
      s.tickPend != 0#16 && (drained s).devPresent && decide (5 ≤ s.nax.toNat) &&
        decide (10 ≤ s.nbtn.toNat) && s.port && decide (txAnswer s 17 < 17)) := by decide +kernel

theorem witness_MapCommandsWriteAxout :
    idle.loop ≠ 3#2 ∧ idle.params.maxAx ≤ (8#8 : Byte).toNat ∧ (7#8 : Byte).toNat < idle.params.maxAx ∧
    (Instr.mapHalf 8#8, 0x0B#8) ∈ [(Instr.mapSym 8#8, 0x09#8), (.mapSymInv 8#8, 0x0A#8),
      (.mapHalf 8#8, 0x0B#8)] := by decide

/-- Two words in order, and the tie of M7 as the tie clause writes it. -/
theorem witness_SymProperties :
    (isNaN64 0xBFF0000000000000#64 = false ∧ isNaN64 0x7FF0000000000000#64 = false ∧
      extLe (value64 0xBFF0000000000000#64) (value64 0x7FF0000000000000#64) = true) ∧
    (isNaN64 0x3FD0000000000000#64 = false ∧
      value64 (symScaled 0x3FD0000000000000#64) = .fin ((2 * ((62 : Nat) : Int) + 1) * 2 ^ 1073)) := by
  decide +kernel

theorem witness_HalfProperties :
    (isNaN64 0xFFF0000000000000#64 = false ∧ isNaN64 0xBFE0000000000000#64 = false ∧
      extLe (value64 0xFFF0000000000000#64) (value64 0xBFE0000000000000#64) = true) ∧
    0 < half false 0xBFE0000000000000#64 := by decide +kernel

theorem witness_MapperCorners :
    isNaN64 0xFFF0000000000001#64 = true ∧ isNaN64 0x8000000000000000#64 = false ∧
    extLe (.fin 0) (value64 0x8000000000000000#64) = true ∧
    extLe (.fin 0) (value64 0x7FF0000000000000#64) = true := by decide +kernel

theorem witness_SampleEffect :
    (ticking.loop = 1#2 ∧ shut.loop = 2#2) ∧ (idle.loop = 0#2 ∧ (drain idle).devPresent = true) ∧
    ((drain { idle with evq := [0x05000000000000000000#80] }).devPresent = false ∧
      (drain { idle with evq := [0x05000000000000000000#80] }).devLost = true) ∧
    (absent.loop = 0#2 ∧ (drain absent).devPresent = false ∧ (drain absent).devLost = false) := by
  decide +kernel

/-- Axis 5 is the controller's last, 6 the first it lacks; no device in the third. -/
theorem witness_AxisMotionEffect :
    idle.devPresent = true ∧ (5#8 : Byte).toNat < idle.nax.toNat ∧ idle.nax.toNat ≤ (6#8 : Byte).toNat ∧
    absent.devPresent = false := by decide

theorem witness_ButtonEffects :
    (idle.devPresent = true ∧ (10#8 : Byte).toNat < idle.nbtn.toNat ∧
      idle.nbtn.toNat ≤ (11#8 : Byte).toNat ∧ absent.devPresent = false) ∧
    (∃ t u, exec (.buttonDown 3#8 0#64) idle = .next t ∧ exec (.buttonUp 3#8 1#64) t = .next u) :=
  ⟨by decide, _, _, rfl, rfl⟩

theorem witness_HatMotionEffect :
    idle.devPresent = true ∧ (0#8 : Byte).toNat < idle.nhat.toNat ∧ (8#64).toNat ≤ 8 ∧
    idle.nhat.toNat ≤ (1#8 : Byte).toNat ∧ 8 < (9#64).toNat ∧ absent.devPresent = false := by decide

theorem witness_DeviceRemovedEffect : idle.devPresent = true ∧ absent.devPresent = false := by decide

theorem witness_UnassignedEventHasNoEffect :
    etypeField 0x00010000000000000000#80 = 0x00#8 ∧ 0x06 ≤ (etypeField 0x06010000000000000000#80).toNat ∧
    0x06 ≤ (etypeField 0xFF010000000000000000#80).toNat := by decide

theorem witness_SnapshotWrittenOnlyBySampling :
    Instr.quit ≠ .sample ∧ Instr.quit ≠ .tick ∧ (∃ t, exec .quit idle = .next t) ∧
    (∀ a v, Instr.quit ≠ .axisMotion a v) ∧
    (∀ a v, Instr.quit ≠ .buttonDown a v ∧ Instr.quit ≠ .buttonUp a v) ∧
    (∀ a v, Instr.quit ≠ .hatMotion a v) :=
  ⟨nofun, nofun, ⟨_, rfl⟩, nofun, fun _ _ => ⟨nofun, nofun⟩, nofun⟩

theorem witness_DisplayRecordByStatus :
    sampled.snapValid = true ∧ busy.snapValid = false ∧ busy.snapEver = true ∧
    idle.snapValid = false ∧ idle.snapEver = false := by decide

theorem witness_EncodeEffect :
    (ticking.loop = 1#2 ∧ shut.loop = 2#2) ∧ (idle.loop = 0#2 ∧ idle.snapValid = false) ∧
    ([withDevice 4 10 0, withDevice 5 9 0].all fun d =>
      let s : State := { d with snapValid := true }
      s.loop == 0#2 && s.snapValid && (decide (s.nax.toNat < 5) || decide (s.nbtn.toNat < 10))) ∧
    (∃ (s : State) (ax : Nat → AxisWord) (btn : Nat → Byte), (∀ i, ax i = s.snapAx.getD i 0#64) ∧
      (∀ b, btn b = if s.snapBtn.getD b false then 1#8 else 0#8) ∧
      s.loop = 0#2 ∧ s.snapValid = true ∧ 5 ≤ s.nax.toNat ∧ 10 ≤ s.nbtn.toNat) :=
  ⟨by decide, by decide, by decide, { withDevice 5 10 0 with snapValid := true }, _, _, fun _ => rfl,
    fun _ => rfl, by decide, by decide, by decide, by decide⟩

/-- Two states with one snapshot and different live registers, both encoding. -/
theorem witness_EncodeProperties :
    let s := sampled
    let s' : State := { sampled with liveAx := [], wire := bytesA }
    (s.loop = 0#2 ∧ s'.loop = 0#2) ∧ (s.snapAx = s'.snapAx ∧ s.snapBtn = s'.snapBtn) ∧
    (s.snapValid = s'.snapValid ∧ s.nax = s'.nax ∧ s.nbtn = s'.nbtn ∧ s.roundTie = s'.roundTie) ∧
    seen (fun t => t.result) (exec .encode s) = some 0x00#8 ∧
    seen (fun t => t.result) (exec .encode s') = some 0x00#8 := by decide +kernel

theorem witness_EncodeResetEffect : idle.loop = 0#2 ∧ ticking.loop = 1#2 ∧ shut.loop = 2#2 := by decide

theorem witness_SendEffect :
    (ticking.loop = 1#2 ∧ shut.loop = 2#2) ∧ (idle.loop = 0#2 ∧ idle.port = false) ∧
    (idleOpen.loop = 0#2 ∧ idleOpen.port = true ∧ idleOpen.flen = 0#5) ∧
    (let s : State := { idleOpen with flen := 17#5, txScript := [17] }
     s.flen ≠ 0#5 ∧ txAnswer s s.flen.toNat = s.flen.toNat) ∧
    (let s : State := { idleOpen with flen := 17#5, txScript := [16] }
     s.flen ≠ 0#5 ∧ txAnswer s s.flen.toNat < s.flen.toNat) := by decide

theorem witness_OpenEffect :
    (ticking.loop = 1#2 ∧ shut.loop = 2#2) ∧ (idleOpen.loop = 0#2 ∧ idleOpen.port = true) ∧
    (let s : State := { idle with openScript := [.ok] }
     s.loop = 0#2 ∧ s.port = false ∧ openAnswer s = .ok) ∧
    (let s : State := { idle with openScript := [.portUnavailable] }
     s.loop = 0#2 ∧ s.port = false ∧ openAnswer s = .portUnavailable) ∧
    (let s : State := { idle with openScript := [.permissionDenied] }
     s.loop = 0#2 ∧ s.port = false ∧ openAnswer s = .permissionDenied) := by decide

theorem witness_CloseEffect :
    (ticking.loop = 1#2 ∧ shut.loop = 2#2) ∧ idle.loop = 0#2 ∧ ∃ t, exec .closePort idle = .next t :=
  ⟨by decide, by decide, _, rfl⟩

theorem witness_PollInboundEffect :
    shut.loop ≠ 3#2 ∧ ticking.loop ≠ 3#2 ∧ ticking.port = true ∧ shut.port = false := by decide

theorem witness_LineFormat :
    lineSignal [(0, 250#8), (3, 50#8)] 1 = lineSignal [(0, 250#8), (3, 50#8)] 1 ∧
    lineWaveform [250#8, 50#8] = lineWaveform [250#8, 50#8] := ⟨rfl, rfl⟩

theorem witness_InboundNeverAffectsOutbound :
    Instr.quit ≠ .pollInbound ∧ ∃ t, exec .quit busy = .next t := ⟨nofun, _, rfl⟩

/-- A word for each of the four clauses, in each loop state that is held. -/
theorem witness_ExecDecodesThenChecksState :
    (idle.loop ≠ 3#2 ∧ ticking.loop ≠ 3#2 ∧ shut.loop ≠ 3#2) ∧
    (opField 0x0400#16 = 0x04#8 ∧ opField 0x1600#16 = 0x16#8) ∧
    (opField 0x1501#16 = 0x15#8 ∧ argField 0x1501#16 ≠ 0#8) ∧
    (opField 0x0300#16 = 0x03#8 ∧ argField 0x0300#16 = 0#8 ∧ idle.loop = 0#2 ∧ ticking.loop = 1#2) ∧
    (opField 0x0BFF#16 = 0x0B#8 ∧ opField 0x1000#16 = 0x10#8 ∧ shut.loop = 2#2) := by decide

theorem witness_LoopThreeIsAFault :
    ({ idle with loop := 3#2 } : State).loop = 3#2 ∧ decodeHostWord 0x0200#16 = .ok .quit := by decide

theorem witness_ResultCodesPerCommand :
    Inv busy ∧ Inv idle ∧ (busy.loop = 1#2 ∧ idle.loop = 0#2) ∧
    ((∃ t, exec .nop busy = .next t) ∧ (∃ t, exec .start idle = .next t) ∧
     (∃ t, exec .quit busy = .next t) ∧ (∃ t, exec .resetReq busy = .next t) ∧
     (∃ t, exec .tick busy = .next t) ∧ (∃ t, exec .pollInbound busy = .next t)) ∧
    ((∃ t, exec (.mapHalf 1#8) busy = .next t) ∧ (∃ t, exec .sample idle = .next t) ∧
     (∃ t, exec .encode idle = .next t) ∧ (∃ t, exec .encodeReset idle = .next t) ∧
     (∃ t, exec .send idle = .next t) ∧ (∃ t, exec .openPort idle = .next t) ∧
     (∃ t, exec .closePort idle = .next t)) :=
  ⟨inv_busy, inv_idle, by decide,
   ⟨⟨_, rfl⟩, ⟨_, rfl⟩, ⟨_, rfl⟩, ⟨_, rfl⟩, ⟨_, rfl⟩, ⟨_, rfl⟩⟩,
   ⟨⟨_, rfl⟩, ⟨_, rfl⟩, ⟨_, rfl⟩, ⟨_, rfl⟩, ⟨_, rfl⟩, ⟨_, rfl⟩, ⟨_, rfl⟩⟩⟩

theorem witness_AtMostOneLogRecord :
    (∃ t, exec .tick busy = .next t) ∧ (∃ t, exec .resetReq busy = .next t) ∧
    (∃ t, exec .start idle = .next t) := ⟨⟨_, rfl⟩, ⟨_, rfl⟩, ⟨_, rfl⟩⟩

theorem witness_TimerStepCountsTicks :
    (let s : State := { ticking with agenda := [.timer], tickPend := 65534#16 }
     s.agenda = .timer :: [] ∧ s.loop = 1#2 ∧ s.tickPend.toNat < s.params.tickPendMax) ∧
    (let s : State := { ticking with agenda := [.timer], tickPend := 65535#16 }
     s.agenda = .timer :: [] ∧ s.loop = 1#2 ∧ s.params.tickPendMax ≤ s.tickPend.toNat) := by decide

/-- A queue with one free slot, and one with none. -/
theorem witness_DeviceStepQueuesRecords :
    (let s : State := { idle with agenda := [.device 0x05000000000000000000#80] }
     s.agenda = .device 0x05000000000000000000#80 :: [] ∧ s.devAttached = true ∧ s.loop ≠ 2#2 ∧
       etypeField 0x05000000000000000000#80 = 0x05#8) ∧
    (let s : State := { idle with evq := List.replicate 63 0#80, agenda := [.device 0#80] }
     s.agenda = .device 0#80 :: [] ∧ s.devAttached = true ∧ s.loop ≠ 2#2 ∧ etypeField 0#80 ≠ 0x05#8 ∧
       s.evq.length < s.params.evqCap) ∧
    (let s : State := { idle with evq := List.replicate 64 0#80, agenda := [.device 0#80] }
     s.agenda = .device 0#80 :: [] ∧ s.devAttached = true ∧ s.loop ≠ 2#2 ∧ etypeField 0#80 ≠ 0x05#8 ∧
       s.params.evqCap ≤ s.evq.length) ∧ Inv idle :=
  ⟨by decide, by decide, by decide, inv_idle⟩

theorem witness_LineStepQueuesBytes :
    (let s : State := { ticking with rxq := List.replicate 255 0#8, agenda := [.line 0x55#8] }
     s.agenda = .line 0x55#8 :: [] ∧ s.port = true ∧ s.rxq.length < s.params.rxCap) ∧
    (let s : State := { ticking with rxq := List.replicate 256 0#8, agenda := [.line 0x55#8] }
     s.agenda = .line 0x55#8 :: [] ∧ s.port = true ∧ s.params.rxCap ≤ s.rxq.length) := by decide +kernel

theorem witness_HostEnqueueOrWait :
    (let s : State := { idle with hcq := List.replicate 15 0#16, agenda := [.enqueue 0x0100#16] }
     s.agenda = .enqueue 0x0100#16 :: [] ∧ s.hcq.length < s.params.hcqCap) ∧
    (let s : State := { idle with hcq := List.replicate 16 0#16, agenda := [.enqueue 0x0100#16] }
     s.agenda = .enqueue 0x0100#16 :: [] ∧ s.params.hcqCap ≤ s.hcq.length) ∧
    ∃ t, seqStep busy = .next t :=
  ⟨by decide, by decide, _, rfl⟩

theorem witness_DisabledAgentChangesNothing :
    idle.agenda = [] ∧ { idle with agenda := [.seq] }.agenda = .seq :: [] ∧
    agentEnabled .seq idle = false ∧ idle.loop ≠ 1#2 ∧ absent.devAttached = false ∧ shut.loop = 2#2 ∧
    idle.port = false := by decide

theorem witness_RegisterReadHasNoSideEffect :
    { idle with agenda := [.read 0x41#8] }.agenda = .read 0x41#8 :: [] := by decide

/-- The queue lengths their registers hold, and the ends of the reserved ranges and of the windows. -/
theorem witness_RegisterMap :
    (idle.evq.length < 2 ^ 64 ∧ busy.rxq.length < 2 ^ 64 ∧ busy.hcq.length < 2 ^ 64) ∧
    (0x14 ≤ (0x14#8 : Byte).toNat ∧ (0x1F#8 : Byte).toNat ≤ 0x1F) ∧
    (0x31 ≤ (0x31#8 : Byte).toNat ∧ (0x3F#8 : Byte).toNat ≤ 0x3F) ∧
    (idle.params.maxAx = 8 ∧ idle.params.maxBtn = 16 ∧ idle.params.maxHat = 4) := by decide

/-- Counts above the capacities (vector E12), and no controller. -/
theorem witness_ResetValues :
    { Params.default with deviceAtReset := .present 12 20 6 }.Legal ∧
    { Params.default with deviceAtReset := .absent, roundTie := .halfAway }.Legal ∧
    { Params.default with baud := 2 ^ 32 - 1, wtoMs := 65535, periodMs := 65535 }.Legal ∧
    { Params.default with baud := 2 ^ 32, wtoMs := 65536, periodMs := 65536 }.Legal := by decide

theorem witness_ResetEstablishesInv : Params.default.Legal := by decide

theorem witness_StepKeepsInv : Inv busy ∧ ∃ t, step busy = .next t := ⟨inv_busy, _, rfl⟩

theorem witness_StepNeverStops : Inv busy := inv_busy

/-- A step that changes `LOOP`. -/
theorem witness_LoopTransitions :
    seen (fun t => t.loop) (step { busy with agenda := [] }) = some 2#2 ∧ busy.loop = 1#2 := by
  decide +kernel

theorem witness_ShutdownIsTerminal :
    Inv { shut with evq := [], devLost := true, fatalCode := 0x03#8 } ∧ shut.loop = 2#2 ∧
    ∃ t, step { shut with evq := [], devLost := true, fatalCode := 0x03#8 } = .next t :=
  ⟨inv_shut, rfl, _, rfl⟩

theorem witness_StreamsAreAppendOnly : ∃ t, step busy = .next t := ⟨_, rfl⟩

theorem witness_ConfigurationIsConstant : ∃ t, step busy = .next t := ⟨_, rfl⟩

theorem witness_OnlyResetRestoresTheDevice :
    Inv { shut with evq := [], devLost := true, fatalCode := 0x03#8 } ∧
    (∃ t, step { shut with evq := [], devLost := true, fatalCode := 0x03#8 } = .next t) ∧
    shut.devPresent = false ∧ shut.devAttached = false :=
  ⟨inv_shut, ⟨_, rfl⟩, rfl, rfl⟩

/-! A run that ticks for ever with no controller: a TIMER step, a SEQ step, and again. -/

/-- What holds before every TIMER step of that run. -/
def Waiting (s : State) : Prop :=
  s.loop = 1#2 ∧ s.hcq = [] ∧ s.tickPend = 0#16 ∧ s.evq = [] ∧ s.devPresent = false ∧ s.devLost = false ∧
    s.params = absent.params

def tickAgent (n : Nat) : AgentStep := if n % 2 = 0 then .timer else .seq

def tickTurn (n : Nat) : Option AgentStep := some (tickAgent n)

def tickRun : Nat → State
  | 0 => { absent with loop := 1#2, port := true }
  | n + 1 =>
    match agentStep (tickAgent n) (tickRun n) with
    | .next t => t
    | .fault _ => tickRun n
    | .refused _ => tickRun n

theorem waiting_timer {s : State} (h : Waiting s) :
    agentStep .timer s = .next { s with tickPend := 1#16 } := by
  obtain ⟨h1, _, h3, _, _, _, h7⟩ := h
  simp [agentStep, timerStep, h1, h3, h7, loopTicking, absent, State.resetWith, Params.default]

theorem waiting_tick {s : State} (h : Waiting s) :
    ∃ t, agentStep .seq { s with tickPend := 1#16 } = .next t ∧ Waiting t := by
  obtain ⟨h1, h2, h3, h4, h5, h6, h7⟩ := h
  refine ⟨tickOp { s with tickPend := 1#16 }, ?_, ?_⟩
  · simp only [agentStep, seqStep, h2, tickDue, h1, loopTicking]
    rfl
  · simp [Waiting, tickOp, tickStages, sampleOp, takeTick, drain, h1, h2, h4, h5, h6, h7, clearEvents,
      clearValid, fail, isLogged, done, emitLog, display]

theorem tickRun_waiting (k : Nat) : Waiting (tickRun (2 * k)) ∧
    agentStep .timer (tickRun (2 * k)) = .next (tickRun (2 * k + 1)) ∧
    tickRun (2 * k + 1) = { tickRun (2 * k) with tickPend := 1#16 } ∧
    agentStep .seq (tickRun (2 * k + 1)) = .next (tickRun (2 * k + 2)) := by
  have turn0 : tickAgent (2 * k) = .timer := by simp [tickAgent]
  have turn1 : tickAgent (2 * k + 1) = .seq := by
    simp only [tickAgent]; split
    · omega
    · rfl
  have hw : Waiting (tickRun (2 * k)) := by
    cases k with
    | zero => exact ⟨rfl, rfl, rfl, rfl, rfl, rfl, rfl⟩
    | succ j =>
      obtain ⟨hj, _, hs, hq⟩ := tickRun_waiting j
      obtain ⟨t, ht, hwt⟩ := waiting_tick hj
      rw [hs, ht] at hq
      have : t = tickRun (2 * j + 2) := by injection hq
      rw [show 2 * (j + 1) = 2 * j + 2 by ring, ← this]
      exact hwt
  have e1 : tickRun (2 * k + 1) = { tickRun (2 * k) with tickPend := 1#16 } := by
    simp only [tickRun, turn0, waiting_timer hw]
  refine ⟨hw, ?_, e1, ?_⟩
  · rw [waiting_timer hw, e1]
  · obtain ⟨t, ht, -⟩ := waiting_tick hw
    have : tickRun (2 * k + 2) = t := by
      show (match agentStep (tickAgent (2 * k + 1)) (tickRun (2 * k + 1)) with
        | .next t => t | .fault _ => _ | .refused _ => _) = t
      rw [turn1, e1, ht]
    rw [this, e1, ht]

theorem even_or_odd (n : Nat) : ∃ k, n = 2 * k ∨ n = 2 * k + 1 := ⟨n / 2, by omega⟩

theorem witness_TicksKeepComing :
    Admissible tickRun tickTurn ∧ (tickRun 0).params.Legal ∧
    ∀ n, (tickRun n).loop = 1#2 ∧ (tickRun n).hcq = [] := by
  have turn0 : ∀ k, tickTurn (2 * k) = some .timer := fun k => by simp [tickTurn, tickAgent]
  have turn1 : ∀ k, tickTurn (2 * k + 1) = some .seq := fun k => by
    simp only [tickTurn, tickAgent]; split
    · omega
    · rfl
  refine ⟨⟨fun n => ?_, fun n _ => ⟨2 * n + 1, by omega, turn1 n⟩, fun n _ => ⟨2 * n, by omega, turn0 n⟩⟩,
    by decide, fun n => ?_⟩
  · obtain ⟨k, rfl | rfl⟩ := even_or_odd n <;> obtain ⟨hw, ht, hs, hq⟩ := tickRun_waiting k
    · rw [turn0]; exact ⟨by simp [agentEnabled, hw.1, loopTicking], ht⟩
    · rw [turn1]; exact ⟨by simp [agentEnabled, hs, hw.1, tickDue, loopTicking], hq⟩
  · obtain ⟨k, rfl | rfl⟩ := even_or_odd n <;> obtain ⟨hw, -, hs, -⟩ := tickRun_waiting k
    · exact ⟨hw.1, hw.2.1⟩
    · rw [hs]; exact ⟨hw.1, hw.2.1⟩

/-- R240: after reset every agent may stay silent for ever. -/
theorem test_silent_run_admissible : Admissible (fun _ => idle) (fun _ => none) :=
  have seq : ¬agentEnabled .seq idle = true := by decide
  have timer : ¬idle.loop = loopTicking := by decide
  ⟨fun _ => rfl, fun n h => absurd (h n le_rfl) seq, fun n h => absurd (h n le_rfl) timer⟩

/-- R10: a rate of 2^32 bits per second is legal, and the other state is as for any parameters. -/
theorem test_wide_baud_is_legal_and_runs :
    seen (fun t => t.result) (exec .sample (State.resetWith { Params.default with baud := 2 ^ 32 })) =
    some 0x00#8 := by decide +kernel

/-- Address 0x0F reads the queue length (R62). -/
theorem test_read_hcq_length : regRead (withWord 0x0100#16) 0x0F#8 = 2#64 := by decide +kernel

end Sys2Proof.Tests
end

section
/-! The statements of 00_scope.md: what no step changes (R10, R13) and an agent with no step (R8).

One relation carries both whole-machine rules: `Evolves s t` says that `t` has the configuration of `s` and
that each output stream of `s` is a prefix of that of `t`. It is reflexive and transitive, and each operation of
the block, each instruction and each step leads from a state to one it evolves to. -/

namespace Sys2Proof.Proofs.Scope

open Sys2Proof.Machine

/-- The parameters, configuration registers, counts and `DEV_FOUND` of `t` are those of `s` (R10; 10_state.md
R27, R40). -/
def SameConfig (s t : State) : Prop :=
  t.params = s.params ∧ t.baud = s.baud ∧ t.wtoMs = s.wtoMs ∧ t.periodMs = s.periodMs ∧
  t.roundTie = s.roundTie ∧ t.nax = s.nax ∧ t.nbtn = s.nbtn ∧ t.nhat = s.nhat ∧
  t.devFound = s.devFound

/-- Each output stream of `s` is a prefix of that of `t` (R13; 10_state.md R41). -/
def StreamsGrow (s t : State) : Prop :=
  s.wire <+: t.wire ∧ s.disp <+: t.disp ∧ s.log <+: t.log ∧ s.inb <+: t.inb

/-- What every step of the block keeps: the configuration, and what the streams already hold. -/
def Evolves (s t : State) : Prop := SameConfig s t ∧ StreamsGrow s t

theorem Evolves.refl (s : State) : Evolves s s := by
  simp [Evolves, SameConfig, StreamsGrow]

theorem Evolves.trans {s t u : State} (h₁ : Evolves s t) (h₂ : Evolves t u) : Evolves s u := by
  obtain ⟨hc₁, hw₁, hd₁, hl₁, hi₁⟩ := h₁
  obtain ⟨hc₂, hw₂, hd₂, hl₂, hi₂⟩ := h₂
  refine ⟨?_, hw₁.trans hw₂, hd₁.trans hd₂, hl₁.trans hl₂, hi₁.trans hi₂⟩
  unfold SameConfig at hc₁ hc₂ ⊢
  simp only [hc₂, hc₁, and_self]

/-! ### Ending an action -/

theorem Evolves.done {s t : State} (c : ResultCode) (h : Evolves s t) : Evolves s (done c t) := h

theorem Evolves.fail {s t : State} (c : ResultCode) (op : Byte) (h : Evolves s t) :
    Evolves s (fail c op t) := by
  refine h.trans ?_
  simp [fail_eq, Evolves, SameConfig, StreamsGrow]

theorem whenLegal_evolves {legal : BitVec 2 → Bool} {op : Byte} {act : State → State} {s t : State}
    (h : whenLegal legal op act s = .next t) (hact : Evolves s (act s)) : Evolves s t := by
  obtain ⟨-, ⟨-, rfl⟩ | ⟨-, rfl⟩⟩ := whenLegal_cases h
  · exact hact
  · exact (Evolves.refl s).fail .badState op

/-! ### The snapshot unit -/

theorem writeLiveAxis_evolves (i : Byte) (v : AxisWord) (s : State) : Evolves s (writeLiveAxis i v s) := by
  unfold writeLiveAxis
  split <;> exact Evolves.refl s

theorem writeLiveButton_evolves (i : Byte) (b : Bool) (s : State) : Evolves s (writeLiveButton i b s) := by
  unfold writeLiveButton
  split <;> exact Evolves.refl s

theorem writeLiveHat_evolves (i : Byte) (c : BitVec 64) (s : State) : Evolves s (writeLiveHat i c s) := by
  unfold writeLiveHat
  split <;> exact Evolves.refl s

theorem loseDevice_evolves (s : State) : Evolves s (loseDevice s) := by
  unfold loseDevice
  split <;> exact Evolves.refl s

theorem drain_evolves (s : State) : Evolves s (drain s) := by
  unfold drain
  rw [foldl_applyRecord_frame]
  exact Evolves.refl s

theorem sampleOp_evolves (op : Byte) (s : State) : Evolves s (sampleOp op s) := by
  have hd : Evolves s (clearValid (drain s)) := drain_evolves s
  obtain ⟨-, h⟩ | ⟨-, -, h⟩ | ⟨-, -, h⟩ := sampleOp_cases op s
  · rw [h]; exact drain_evolves s
  · rw [h]; exact hd.fail .deviceDisconnected op
  · rw [h]; exact hd.fail .deviceNotFound op

theorem display_evolves (s : State) : Evolves s (display s) := by
  simp [Evolves, SameConfig, StreamsGrow]

/-! ### The axis mapper and the frame packer -/

theorem mapAxis_evolves (op : Byte) (f : Bool → AxisWord → Nat) (i : Byte) (s : State) :
    Evolves s (mapAxis op f i s) := by
  unfold mapAxis
  split
  · exact (Evolves.refl s).fail .badIndex op
  · exact Evolves.refl s

theorem encodeOp_evolves (op : Byte) (s : State) : Evolves s (encodeOp op s) := by
  obtain ⟨-, h⟩ | ⟨-, -, h⟩ | ⟨-, -, -, h⟩ := encodeOp_cases op s
  · rw [h]; exact Evolves.refl s
  · rw [h]; exact Evolves.fail .unsupportedDevice op (t := dropFrame s) (Evolves.refl s)
  · rw [h]; exact Evolves.refl s

theorem encodeResetOp_evolves (s : State) : Evolves s (encodeResetOp s) := Evolves.refl s

/-! ### The transmitter -/

theorem emitInbound_evolves (bytes : List Byte) (s : State) : Evolves s (emitInbound bytes s) := by
  simp [Evolves, SameConfig, StreamsGrow]

/-- The bytes of a SEND reach the wire and the frame is consumed. -/
theorem sent_evolves (c : ResultCode) (bytes : List Byte) (s : State) :
    Evolves s (setTxResult c (dropFrame (emitWire bytes (drawTx s)))) := by
  simp [Evolves, SameConfig, StreamsGrow]

theorem sendOp_evolves (op : Byte) (s : State) : Evolves s (sendOp op s) := by
  obtain ⟨-, h⟩ | ⟨-, -, h⟩ | ⟨-, -, -, h⟩ | ⟨-, -, -, h⟩ := sendOp_cases op s
  · rw [h]; exact Evolves.fail .notOpen op (t := setTxResult .notOpen (dropFrame s)) (Evolves.refl s)
  · rw [h]; exact Evolves.refl s
  · rw [h]; exact (sent_evolves _ _ s).done .ok
  · rw [h]; exact (sent_evolves _ _ s).fail .writeTimeout op

/-- The fatal path writes no configuration and no stream but the LOG record of its code. -/
theorem openFailed_evolves (c : ResultCode) (op : Byte) (s : State) : Evolves s (openFailed c op s) :=
  Evolves.fail c op (t := enterShutdown (setFatal c s)) (Evolves.refl s)

theorem drawOpen_evolves (s : State) : Evolves s (drawOpen s) := Evolves.refl s

theorem portUp_evolves (s : State) : Evolves s (portUp s) := Evolves.refl s

theorem openOp_evolves (op : Byte) (s : State) : Evolves s (openOp op s) := by
  obtain ⟨-, h⟩ | ⟨-, -, h⟩ | ⟨-, -, h⟩ | ⟨-, -, h⟩ := openOp_cases op s
  · rw [h]; exact (Evolves.refl s).fail .badState op
  · rw [h]; exact ((drawOpen_evolves s).trans (portUp_evolves _)).done .ok
  · rw [h]; exact (drawOpen_evolves s).trans (openFailed_evolves .portUnavailable op _)
  · rw [h]; exact (drawOpen_evolves s).trans (openFailed_evolves .permissionDenied op _)

theorem closeOp_evolves (s : State) : Evolves s (closeOp s) := Evolves.refl s

theorem clearInbound_evolves (s : State) : Evolves s (clearInbound s) := Evolves.refl s

theorem pollInboundOp_evolves (op : Byte) (s : State) : Evolves s (pollInboundOp op s) := by
  obtain ⟨-, h⟩ | ⟨-, h⟩ := pollInboundOp_cases op s
  · rw [h]; exact (emitInbound_evolves [] s).fail .notOpen op
  · rw [h]; exact ((emitInbound_evolves s.rxq s).trans (clearInbound_evolves _)).done .ok

/-! ### The sequencer -/

theorem enterTicking_evolves (s : State) : Evolves s (enterTicking s) := Evolves.refl s

theorem startOp_evolves (s : State) : Evolves s (startOp s) := by
  obtain ⟨-, h⟩ | ⟨-, -, h⟩ | ⟨-, -, h⟩ := startOp_cases s
  · rw [h]; exact Evolves.refl s
  · rw [h]; exact openOp_evolves opStart s
  · rw [h]; exact ((openOp_evolves opStart s).trans (enterTicking_evolves _)).done .ok

theorem quitOp_evolves (s : State) : Evolves s (quitOp s) := by
  obtain ⟨-, h⟩ | ⟨-, h⟩ := quitOp_cases s
  · rw [h]; exact Evolves.refl s
  · rw [h]; exact Evolves.refl s

theorem resetReqOp_evolves (s : State) : Evolves s (resetReqOp s) :=
  (encodeResetOp_evolves s).trans (sendOp_evolves opResetReq (encodeResetOp s))

theorem tickStages_evolves (s : State) : Evolves s (tickStages s) := by
  have he := encodeOp_evolves opTick s
  simp only [tickStages]
  split
  · split
    · exact he.trans (sendOp_evolves opTick (encodeOp opTick s))
    · exact he
  · exact Evolves.refl s

/-- A tick: the sample, the encode and send stages, and the display, one after another. -/
theorem tickOp_evolves (s : State) : Evolves s (tickOp s) :=
  have sampled : Evolves s (sampleOp opTick (takeTick s)) := sampleOp_evolves opTick (takeTick s)
  (sampled.trans (tickStages_evolves _)).trans (display_evolves _)

theorem exec_evolves (i : Instr) {s t : State} (h : exec i s = .next t) : Evolves s t := by
  cases i with
  | nop => exact whenLegal_evolves h (Evolves.refl s)
  | start => exact whenLegal_evolves h (startOp_evolves s)
  | quit => exact whenLegal_evolves h (quitOp_evolves s)
  | resetReq => exact whenLegal_evolves h (resetReqOp_evolves s)
  | tick => cases h; exact tickOp_evolves s
  | pollInbound => exact whenLegal_evolves h (pollInboundOp_evolves opPollInbound s)
  | mapSym index => exact whenLegal_evolves h (mapAxis_evolves opMapSym sym index s)
  | mapSymInv index => exact whenLegal_evolves h (mapAxis_evolves opMapSymInv symInv index s)
  | mapHalf index => exact whenLegal_evolves h (mapAxis_evolves opMapHalf half index s)
  | sample => exact whenLegal_evolves h (sampleOp_evolves opSample s)
  | encode => exact whenLegal_evolves h (encodeOp_evolves opEncode s)
  | encodeReset => exact whenLegal_evolves h (encodeResetOp_evolves s)
  | send => exact whenLegal_evolves h (sendOp_evolves opSend s)
  | openPort => exact whenLegal_evolves h (openOp_evolves opOpen s)
  | closePort => exact whenLegal_evolves h (closeOp_evolves s)
  | axisMotion index value => cases h; exact writeLiveAxis_evolves index value s
  | buttonDown index value => cases h; exact writeLiveButton_evolves index true s
  | buttonUp index value => cases h; exact writeLiveButton_evolves index false s
  | hatMotion index value => cases h; exact writeLiveHat_evolves index value s
  | deviceRemoved index value => cases h; exact loseDevice_evolves s
  | motorFrame frame => cases h; exact Evolves.refl s
  | resetFrame => cases h; exact Evolves.refl s

theorem execWord_evolves (w : CommandWord) {s t : State} (h : execWord w s = .next t) : Evolves s t := by
  obtain ⟨i, -, he⟩ | ⟨-, he⟩ := execWord_cases w s
  · exact exec_evolves i (he.symm.trans h)
  · cases he.symm.trans h
    exact (Evolves.refl s).fail .illegalCommand (opField w)

/-! ### The agents -/

theorem seqStep_evolves {s t : State} (h : seqStep s = .next t) : Evolves s t := by
  obtain ⟨w, rest, -, hs⟩ | ⟨-, -, hs⟩ | ⟨-, -, hs⟩ := seqStep_cases s
  · exact execWord_evolves w (s := { s with hcq := rest }) (hs.symm.trans h)
  · exact exec_evolves .tick (hs.symm.trans h)
  · cases hs.symm.trans h
    exact Evolves.refl s

theorem timerStep_evolves (s : State) : Evolves s (timerStep s) := by
  unfold timerStep
  split <;> exact Evolves.refl s

theorem deviceStep_evolves (e : EventWord) (s : State) : Evolves s (deviceStep e s) := by
  unfold deviceStep
  repeat' split
  all_goals exact Evolves.refl s

theorem enqueueStep_evolves (w : CommandWord) (s : State) : Evolves s (enqueueStep w s) := by
  unfold enqueueStep
  split <;> exact Evolves.refl s

theorem lineStep_evolves (b : Byte) (s : State) : Evolves s (lineStep b s) := by
  unfold lineStep
  split <;> exact Evolves.refl s

theorem agentStep_evolves (a : AgentStep) {s t : State} (h : agentStep a s = .next t) : Evolves s t := by
  cases a with
  | seq => exact seqStep_evolves h
  | timer => cases h; exact timerStep_evolves s
  | device e => cases h; exact deviceStep_evolves e s
  | enqueue w => cases h; exact enqueueStep_evolves w s
  | read addr => cases h; exact Evolves.refl s
  | line b => cases h; exact lineStep_evolves b s

/-- Every step of every agent keeps the configuration and only extends the streams. -/
theorem step_evolves {s t : State} (h : step s = .next t) : Evolves s t := by
  obtain hs | ⟨a, rest, -, hs⟩ := step_cases s
  · exact seqStep_evolves (hs.symm.trans h)
  · exact agentStep_evolves a (s := { s with agenda := rest }) (hs.symm.trans h)

/-- Settles O57: the stream half of `step_evolves`. -/
theorem streamsAreAppendOnly : Obligations.StreamsAreAppendOnly :=
  fun _ _ h => (step_evolves h).2

/-- Settles O58: the configuration half of `step_evolves`. -/
theorem configurationIsConstant : Obligations.ConfigurationIsConstant :=
  fun _ _ h => (step_evolves h).1

/-! ### An agent that is not enabled -/

theorem step_of_agenda_nil {s : State} (h : s.agenda = []) : step s = seqStep s := by
  simp only [step, nextStep, h]

/-- An agent that does not have to wait takes its step, and its entry leaves the agenda. -/
theorem step_of_agenda_cons {s : State} {a : AgentStep} {rest : List AgentStep} (h : s.agenda = a :: rest)
    (hw : mustWait a s = false) : step s = agentStep a { s with agenda := rest } := by
  simp [step, nextStep, h, hw]

/-- SEQ has a step exactly when a host command is pending or a tick is due (R8; 45_sequencer.md R216). -/
theorem agentEnabled_seq_eq_false_iff (s : State) :
    agentEnabled .seq s = false ↔ s.hcq = [] ∧ tickDue s = false := by
  simp [agentEnabled]

theorem seqStep_of_not_enabled {s : State} (h : agentEnabled .seq s = false) : seqStep s = .next s := by
  obtain ⟨hq, ht⟩ := (agentEnabled_seq_eq_false_iff s).mp h
  simp [seqStep, hq, ht]

theorem timerStep_of_not_ticking {s : State} (h : s.loop ≠ 1#2) : timerStep s = s :=
  if_neg fun hl => h hl.1

theorem deviceStep_of_detached_or_shutdown {s : State} (e : EventWord)
    (h : s.devAttached = false ∨ s.loop = 2#2) : deviceStep e s = s := by
  obtain ha | hl := h
  · simp [deviceStep, ha]
  · simp [deviceStep, hl, loopShutdown]

theorem lineStep_of_port_closed {s : State} (b : Byte) (h : s.port = false) : lineStep b s = s := by
  simp [lineStep, h]

/-- Settles O48, agent by agent. -/
theorem disabledAgentChangesNothing : Obligations.DisabledAgentChangesNothing :=
  ⟨fun _ h => step_of_agenda_nil h,
   fun _ _ h => step_of_agenda_cons h rfl,
   fun _ h => seqStep_of_not_enabled h,
   fun _ h => congrArg _ (timerStep_of_not_ticking h),
   fun _ e h => congrArg _ (deviceStep_of_detached_or_shutdown e h),
   fun _ b h => congrArg _ (lineStep_of_port_closed b h)⟩

end Sys2Proof.Proofs.Scope
end

section
/-! The statements of 10_state.md: the invariant of R43 at reset and under every step, who writes the live
state and the snapshot (R28, R30, R31), and the loop state that is never held (R22).

The invariant is carried operation by operation: a lemma for each plain write of the block gives the fields of
`Inv` that the write touches and takes the others over, a lemma for each command composes them, and the step
follows by its cases. -/

namespace Sys2Proof.Proofs.State

open Sys2Proof.Machine

/-! ### The commands of the host -/

/-- The instructions a host word can decode to: every command word but TICK, which is the sequencer's own
(30_encoding.md R87, R88), no event record and no frame. -/
def IsHostCommand : Instr → Prop
  | .nop | .start | .quit | .resetReq | .pollInbound | .mapSym _ | .mapSymInv _ | .mapHalf _ | .sample
  | .encode | .encodeReset | .send | .openPort | .closePort => True
  | .tick | .axisMotion _ _ | .buttonDown _ _ | .buttonUp _ _ | .hatMotion _ _ | .deviceRemoved _ _
  | .motorFrame _ | .resetFrame => False

theorem indexedCommand_isHostCommand {op arg : Byte} {i : Instr} (h : indexedCommand op arg = some i) :
    IsHostCommand i := by
  unfold indexedCommand at h
  split at h <;> cases h <;> trivial

/-- Of the commands without operand only TICK is not the host's, and its opcode is 0x04. -/
theorem plainCommand_isHostCommand {op : Byte} {i : Instr} (h : plainCommand op = some i)
    (hop : op ≠ 0x04#8) : IsHostCommand i := by
  unfold plainCommand at h
  split at h
  case h_5 htick => exact absurd (BitVec.eq_of_toNat_eq htick) hop
  all_goals cases h <;> trivial

theorem decodeHostWord_isHostCommand {w : CommandWord} {i : Instr} (h : decodeHostWord w = .ok i) :
    IsHostCommand i := by
  unfold decodeHostWord decodeCommand at h
  split at h
  · cases h
  next hop =>
    split at h
    next hindexed => cases h; exact indexedCommand_isHostCommand hindexed
    next =>
      split at h
      · cases h
      next hplain =>
        split at h <;> cases h
        exact plainCommand_isHostCommand hplain hop

theorem whenLegal_loop_three {s : State} (legal : BitVec 2 → Bool) (op : Byte) (act : State → State)
    (h : s.loop = 3#2) : whenLegal legal op act s = .fault .loopReserved := if_pos h

/-- Every command of the host makes the legality check, which stops at `LOOP = 3`. -/
theorem exec_hostCommand_loop_three {i : Instr} {s : State} (hi : IsHostCommand i) (h : s.loop = 3#2) :
    exec i s = .fault .loopReserved := by
  cases i with
  | nop | start | quit | resetReq | pollInbound | mapSym | mapSymInv | mapHalf | sample | encode
  | encodeReset | send | openPort | closePort => exact whenLegal_loop_three _ _ _ h
  | tick | axisMotion | buttonDown | buttonUp | hatMotion | deviceRemoved | motorFrame | resetFrame =>
    exact hi.elim

theorem execWord_of_decodes {w : CommandWord} {i : Instr} (s : State) (h : decodeHostWord w = .ok i) :
    execWord w s = exec i s := by
  simp only [execWord, h]

/-- Settles O40. -/
theorem loopThreeIsAFault : Obligations.LoopThreeIsAFault := fun s _ _ hloop hw =>
  (execWord_of_decodes s hw).trans (exec_hostCommand_loop_three (decodeHostWord_isHostCommand hw) hloop)

/-! ### Who writes the live state and the snapshot -/

/-- The snapshot registers and bits (R30, R31). -/
def snapshotOf (s : State) : List AxisWord × List Bool × List HatCode × Bool × Bool :=
  (s.snapAx, s.snapBtn, s.snapHat, s.snapValid, s.snapEver)

/-- The snapshot and the live registers (R28): what the snapshot unit alone writes. -/
def inputsOf (s : State) :
    (List AxisWord × List Bool × List HatCode × Bool × Bool) × List AxisWord × List Bool × List HatCode :=
  (snapshotOf s, s.liveAx, s.liveBtn, s.liveHat)

@[simp] theorem inputsOf_done (c : ResultCode) (s : State) : inputsOf (done c s) = inputsOf s := rfl

@[simp] theorem inputsOf_fail (c : ResultCode) (op : Byte) (s : State) :
    inputsOf (fail c op s) = inputsOf s := by
  rw [fail_eq]; rfl

theorem inputsOf_of_whenLegal {legal : BitVec 2 → Bool} {op : Byte} {act : State → State} {s t : State}
    (h : whenLegal legal op act s = .next t) (hact : inputsOf (act s) = inputsOf s) :
    inputsOf t = inputsOf s := by
  obtain ⟨-, ⟨-, rfl⟩ | ⟨-, rfl⟩⟩ := whenLegal_cases h
  · exact hact
  · exact inputsOf_fail .badState op s

theorem inputsOf_mapAxis (op : Byte) (f : Bool → AxisWord → Nat) (i : Byte) (s : State) :
    inputsOf (mapAxis op f i s) = inputsOf s := by
  obtain ⟨-, h⟩ | ⟨-, h⟩ := mapAxis_cases op f i s
  · rw [h, inputsOf_fail]
  · rw [h]; rfl

theorem inputsOf_encodeOp (op : Byte) (s : State) : inputsOf (encodeOp op s) = inputsOf s := by
  obtain ⟨-, h⟩ | ⟨-, -, h⟩ | ⟨-, -, -, h⟩ := encodeOp_cases op s
  · rw [h]; rfl
  · rw [h, inputsOf_fail]; rfl
  · rw [h]; rfl

@[simp] theorem inputsOf_dropFrame (s : State) : inputsOf (dropFrame s) = inputsOf s := rfl

@[simp] theorem inputsOf_drawTx (s : State) : inputsOf (drawTx s) = inputsOf s := rfl

@[simp] theorem inputsOf_emitWire (bytes : List Byte) (s : State) :
    inputsOf (emitWire bytes s) = inputsOf s := rfl

@[simp] theorem inputsOf_setTxResult (c : ResultCode) (s : State) :
    inputsOf (setTxResult c s) = inputsOf s := rfl

theorem inputsOf_sendOp (op : Byte) (s : State) : inputsOf (sendOp op s) = inputsOf s := by
  obtain ⟨-, h⟩ | ⟨-, -, h⟩ | ⟨-, -, -, h⟩ | ⟨-, -, -, h⟩ := sendOp_cases op s
  · simp [h]
  · simp [h]
  · simp [h]
  · simp [h]

theorem inputsOf_openFailed (c : ResultCode) (op : Byte) (s : State) :
    inputsOf (openFailed c op s) = inputsOf s :=
  inputsOf_fail c op (enterShutdown (setFatal c s))

theorem inputsOf_openOp (op : Byte) (s : State) : inputsOf (openOp op s) = inputsOf s := by
  obtain ⟨-, h⟩ | ⟨-, -, h⟩ | ⟨-, -, h⟩ | ⟨-, -, h⟩ := openOp_cases op s
  · rw [h, inputsOf_fail]
  · rw [h]; rfl
  · rw [h, inputsOf_openFailed]; rfl
  · rw [h, inputsOf_openFailed]; rfl

theorem inputsOf_pollInboundOp (op : Byte) (s : State) : inputsOf (pollInboundOp op s) = inputsOf s := by
  obtain ⟨-, h⟩ | ⟨-, h⟩ := pollInboundOp_cases op s
  · rw [h, inputsOf_fail]; rfl
  · rw [h]; rfl

theorem inputsOf_startOp (s : State) : inputsOf (startOp s) = inputsOf s := by
  obtain ⟨-, h⟩ | ⟨-, -, h⟩ | ⟨-, -, h⟩ := startOp_cases s
  · rw [h]; rfl
  · rw [h, inputsOf_openOp]
  · rw [h]; exact inputsOf_openOp opStart s

theorem inputsOf_quitOp (s : State) : inputsOf (quitOp s) = inputsOf s := by
  obtain ⟨-, h⟩ | ⟨-, h⟩ := quitOp_cases s
  · rw [h, inputsOf_done]
  · rw [h]; rfl

theorem inputsOf_resetReqOp (s : State) : inputsOf (resetReqOp s) = inputsOf s :=
  inputsOf_sendOp opResetReq (encodeResetOp s)

/-- The commands of the host that do not drain keep the live state and the snapshot. -/
theorem exec_hostCommand_inputsOf {i : Instr} {s t : State} (hi : IsHostCommand i) (hs : i ≠ .sample)
    (h : exec i s = .next t) : inputsOf t = inputsOf s := by
  cases i with
  | nop => exact inputsOf_of_whenLegal h rfl
  | start => exact inputsOf_of_whenLegal h (inputsOf_startOp s)
  | quit => exact inputsOf_of_whenLegal h (inputsOf_quitOp s)
  | resetReq => exact inputsOf_of_whenLegal h (inputsOf_resetReqOp s)
  | pollInbound => exact inputsOf_of_whenLegal h (inputsOf_pollInboundOp _ s)
  | mapSym index => exact inputsOf_of_whenLegal h (inputsOf_mapAxis _ _ index s)
  | mapSymInv index => exact inputsOf_of_whenLegal h (inputsOf_mapAxis _ _ index s)
  | mapHalf index => exact inputsOf_of_whenLegal h (inputsOf_mapAxis _ _ index s)
  | sample => exact absurd rfl hs
  | encode => exact inputsOf_of_whenLegal h (inputsOf_encodeOp _ s)
  | encodeReset => exact inputsOf_of_whenLegal h rfl
  | send => exact inputsOf_of_whenLegal h (inputsOf_sendOp _ s)
  | openPort => exact inputsOf_of_whenLegal h (inputsOf_openOp _ s)
  | closePort => exact inputsOf_of_whenLegal h rfl
  | tick | axisMotion | buttonDown | buttonUp | hatMotion | deviceRemoved | motorFrame | resetFrame =>
    exact hi.elim

theorem writeLiveAxis_writes (i : Byte) (v : AxisWord) (s : State) :
    writeLiveAxis i v s = { s with liveAx := (writeLiveAxis i v s).liveAx } := by
  unfold writeLiveAxis
  split <;> rfl

theorem writeLiveButton_writes (i : Byte) (b : Bool) (s : State) :
    writeLiveButton i b s = { s with liveBtn := (writeLiveButton i b s).liveBtn } := by
  unfold writeLiveButton
  split <;> rfl

theorem writeLiveHat_writes (i : Byte) (c : BitVec 64) (s : State) :
    writeLiveHat i c s = { s with liveHat := (writeLiveHat i c s).liveHat } := by
  unfold writeLiveHat
  split <;> rfl

theorem inputsOf_loseDevice (s : State) : inputsOf (loseDevice s) = inputsOf s := by
  unfold loseDevice
  split <;> rfl

/-- The snapshot is kept, and each live array that `i` is no record for. -/
def WritesOwnInputs (i : Instr) (s t : State) : Prop :=
  snapshotOf t = snapshotOf s ∧
  ((∀ a v, i ≠ .axisMotion a v) → t.liveAx = s.liveAx) ∧
  ((∀ a v, i ≠ .buttonDown a v ∧ i ≠ .buttonUp a v) → t.liveBtn = s.liveBtn) ∧
  ((∀ a v, i ≠ .hatMotion a v) → t.liveHat = s.liveHat)

theorem writesOwnInputs_of_inputsOf {i : Instr} {s t : State} (h : inputsOf t = inputsOf s) :
    WritesOwnInputs i s t := by
  simp only [inputsOf, Prod.mk.injEq] at h
  obtain ⟨hsnap, hax, hbtn, hhat⟩ := h
  exact ⟨hsnap, fun _ => hax, fun _ => hbtn, fun _ => hhat⟩

/-- An instruction that is neither SAMPLE nor TICK writes at most the live array it is a record for. -/
theorem exec_writesOwnInputs {i : Instr} {s t : State} (hs : i ≠ .sample) (ht : i ≠ .tick)
    (h : exec i s = .next t) : WritesOwnInputs i s t := by
  cases i with
  | tick => exact absurd rfl ht
  | axisMotion a v =>
    cases h
    rw [writeLiveAxis_writes]
    exact ⟨rfl, fun hne => absurd rfl (hne a v), fun _ => rfl, fun _ => rfl⟩
  | buttonDown a v =>
    cases h
    rw [writeLiveButton_writes]
    exact ⟨rfl, fun _ => rfl, fun hne => absurd rfl (hne a v).1, fun _ => rfl⟩
  | buttonUp a v =>
    cases h
    rw [writeLiveButton_writes]
    exact ⟨rfl, fun _ => rfl, fun hne => absurd rfl (hne a v).2, fun _ => rfl⟩
  | hatMotion a v =>
    cases h
    rw [writeLiveHat_writes]
    exact ⟨rfl, fun _ => rfl, fun _ => rfl, fun hne => absurd rfl (hne a v)⟩
  | deviceRemoved a v => cases h; exact writesOwnInputs_of_inputsOf (inputsOf_loseDevice s)
  | motorFrame frame => cases h; exact writesOwnInputs_of_inputsOf rfl
  | resetFrame => cases h; exact writesOwnInputs_of_inputsOf rfl
  | nop | start | quit | resetReq | pollInbound | mapSym | mapSymInv | mapHalf | sample | encode
  | encodeReset | send | openPort | closePort =>
    exact writesOwnInputs_of_inputsOf (exec_hostCommand_inputsOf (by trivial) hs h)

/-- Settles O27: `exec_writesOwnInputs`, with the snapshot taken apart into its registers and bits. -/
theorem snapshotWrittenOnlyBySampling : Obligations.SnapshotWrittenOnlyBySampling := by
  intro i s t hs ht h
  obtain ⟨hsnap, hlive⟩ := exec_writesOwnInputs hs ht h
  simp only [snapshotOf, Prod.mk.injEq] at hsnap
  exact ⟨hsnap, hlive⟩

/-! ### The invariant at reset -/

/-- A count capped at a register capacity fits its byte and stays below the capacity. -/
theorem toNat_cappedCount_le (n cap : Nat) : (BitVec.ofNat 8 (min n cap)).toNat ≤ cap :=
  (Nat.mod_le _ _).trans (min_le_right n cap)

theorem resetWith_inv {p : Params} (h : p.Legal) : Inv (State.resetWith p) where
  params_legal := h
  loop_held := by simp [State.resetWith]
  flen_values := .inl rfl
  ticking_open := nofun
  valid_ever := nofun
  lost_absent := nofun
  present_found := id
  fatal_shutdown := fun hf => absurd rfl hf
  shutdown_quiet := nofun
  wire_alphabet := nofun
  buffer_alphabet := by simp [State.resetWith, WireByte]
  frame_head := ⟨nofun, nofun⟩
  evq_ordinary := Nat.zero_le _
  evq_removal := Nat.zero_le _
  rxq_bound := Nat.zero_le _
  hcq_bound := Nat.zero_le _
  tick_bound := Nat.zero_le _
  live_sizes := by simp [State.resetWith]
  snap_sizes := by simp [State.resetWith]
  counts_bound := ⟨toNat_cappedCount_le _ _, toNat_cappedCount_le _ _, toNat_cappedCount_le _ _⟩
  hat_codes := by simp [State.resetWith, List.mem_replicate]
  axout_range := Nat.zero_le _
  result_listed := by simp [State.resetWith]
  tx_listed := by simp [State.resetWith]
  fatal_listed := by simp [State.resetWith]
  log_logged := nofun
  config_regs := ⟨rfl, rfl, rfl, by cases hr : p.roundTie <;> simp [State.resetWith, hr]⟩

/-- Settles O52: the agenda and the oracle answers are no part of the invariant. -/
theorem resetEstablishesInv : Obligations.ResetEstablishesInv :=
  fun _ _ _ _ hp => { resetWith_inv hp with }

/-! ### The invariant under the plain writes -/

theorem codeByte_listed (c : ResultCode) : ListedCode (codeByte c) := by
  cases c <;> decide

theorem codeByte_logged {c : ResultCode} (h : isLogged c = true) : LoggedCode (codeByte c) := by
  revert h
  cases c <;> decide

section
variable {s : State} (h : Inv s)
include h

theorem inv_done (c : ResultCode) : Inv (done c s) :=
  { h with result_listed := codeByte_listed c }

theorem inv_emitLog {c : ResultCode} (op : Byte) (hc : isLogged c = true) : Inv (emitLog c op s) :=
  { h with
    log_logged := fun r hr => by
      obtain hr | hr := List.mem_append.mp hr
      · exact h.log_logged r hr
      · rw [List.mem_singleton.mp hr]
        exact codeByte_logged hc }

theorem inv_fail (c : ResultCode) (op : Byte) : Inv (fail c op s) := by
  unfold fail
  split
  next hc => exact inv_emitLog (inv_done h c) op hc
  next => exact inv_done h c

theorem inv_of_whenLegal {legal : BitVec 2 → Bool} {op : Byte} {act : State → State} {t : State}
    (ht : whenLegal legal op act s = .next t) (hact : legal s.loop = true → Inv (act s)) : Inv t := by
  obtain ⟨-, ⟨hl, rfl⟩ | ⟨-, rfl⟩⟩ := whenLegal_cases ht
  · exact hact hl
  · exact inv_fail h .badState op

theorem inv_drawOpen : Inv (drawOpen s) := { h with }

theorem inv_drawTx : Inv (drawTx s) := { h with }

/-- ENTER_SHUTDOWN, with the code of a failed open or with the one already held. -/
theorem inv_enterShutdown {f : Byte} (hf : f ∈ [0x00#8, 0x03#8, 0x04#8]) :
    Inv (enterShutdown { s with fatalCode := f }) :=
  { h with
    loop_held := by simp [loopShutdown]
    flen_values := .inl rfl
    ticking_open := by simp [loopShutdown, loopTicking]
    lost_absent := fun _ => rfl
    present_found := nofun
    fatal_shutdown := fun _ => rfl
    shutdown_quiet := fun _ => ⟨rfl, rfl, rfl⟩
    frame_head := ⟨nofun, nofun⟩
    evq_ordinary := Nat.zero_le _
    evq_removal := Nat.zero_le _
    rxq_bound := Nat.zero_le _
    tick_bound := Nat.zero_le _
    fatal_listed := hf }

/-- No frame is pending, so nothing is asked of the buffer's first cell. -/
theorem inv_dropFrame : Inv (dropFrame s) :=
  { h with
    flen_values := .inl rfl
    frame_head := ⟨nofun, nofun⟩ }

/-- The loop starts only with an open port, so no fatal code is held (R43 (e), (f)). -/
theorem inv_enterTicking (hp : s.port = true) : Inv (enterTicking s) :=
  { inv_dropFrame h with
    loop_held := by simp [loopTicking]
    ticking_open := fun _ => hp
    fatal_shutdown := fun hf => by
      obtain ⟨hclosed, -⟩ := h.shutdown_quiet (h.fatal_shutdown hf)
      cases hp.symm.trans hclosed
    shutdown_quiet := by simp [loopTicking, loopShutdown]
    tick_bound := Nat.zero_le _ }

/-- A tick is taken only when one is pending: the decrement does not wrap. -/
theorem inv_takeTick (ht : s.tickPend ≠ 0#16) : Inv (takeTick s) :=
  { h with
    shutdown_quiet := fun hl => by
      obtain ⟨-, -, hzero⟩ := h.shutdown_quiet hl
      exact absurd hzero ht
    tick_bound := by
      have hle : (s.tickPend - 1#16).toNat ≤ s.tickPend.toNat := by bv_omega
      exact hle.trans h.tick_bound }

/-! #### The snapshot unit -/

theorem inv_writeLiveAxis (i : Byte) (v : AxisWord) : Inv (writeLiveAxis i v s) := by
  unfold writeLiveAxis
  split
  · exact { h with live_sizes := by simpa using h.live_sizes }
  · exact h

theorem inv_writeLiveButton (i : Byte) (b : Bool) : Inv (writeLiveButton i b s) := by
  unfold writeLiveButton
  split
  · exact { h with live_sizes := by simpa using h.live_sizes }
  · exact h

/-- The low four bits of a hat value of at most 8 are that value. -/
theorem inv_writeLiveHat (i : Byte) (c : BitVec 64) : Inv (writeLiveHat i c s) := by
  unfold writeLiveHat
  split
  next hc =>
    have hcode : (c.extractLsb' 0 4).toNat ≤ 8 := by
      simp only [Bool.and_eq_true, decide_eq_true_eq] at hc
      rw [BitVec.extractLsb'_toNat, Nat.shiftRight_zero]
      exact (Nat.mod_le _ _).trans hc.2
    exact { h with
      live_sizes := by simpa using h.live_sizes
      hat_codes := ⟨fun d hd => by
        obtain hd | rfl := List.mem_or_eq_of_mem_set hd
        · exact h.hat_codes.1 d hd
        · exact hcode, h.hat_codes.2⟩ }
  next => exact h

theorem inv_loseDevice : Inv (loseDevice s) := by
  unfold loseDevice
  split
  · exact { h with
      lost_absent := fun _ => rfl
      present_found := nofun
      shutdown_quiet := fun hl =>
        let ⟨hport, _, htick⟩ := h.shutdown_quiet hl
        ⟨hport, rfl, htick⟩ }
  · exact h

theorem inv_applyRecord (e : EventWord) : Inv (applyRecord s e) := by
  unfold applyRecord
  split
  · exact inv_writeLiveAxis h _ _
  split
  · exact inv_writeLiveButton h _ _
  split
  · exact inv_writeLiveButton h _ _
  split
  · exact inv_writeLiveHat h _ _
  split
  · exact inv_loseDevice h
  · exact h

theorem inv_clearEvents : Inv (clearEvents s) :=
  { h with
    evq_ordinary := Nat.zero_le _
    evq_removal := Nat.zero_le _ }

theorem inv_drain : Inv (drain s) :=
  inv_clearEvents (foldl_applyRecord_induct (P := Inv) (fun _ e hs => inv_applyRecord hs e) s.evq s h)

theorem inv_clearValid : Inv (clearValid s) := { h with valid_ever := nofun }

theorem inv_capture : Inv (capture s) :=
  { h with
    valid_ever := fun _ => rfl
    snap_sizes := h.live_sizes
    hat_codes := ⟨h.hat_codes.1, h.hat_codes.1⟩ }

theorem inv_display : Inv (display s) := { h with }

theorem inv_sampleOp (op : Byte) : Inv (sampleOp op s) := by
  have hd : Inv (drain s) := inv_drain h
  obtain ⟨-, hs⟩ | ⟨-, -, hs⟩ | ⟨-, -, hs⟩ := sampleOp_cases op s
  · rw [hs]; exact inv_done (inv_capture hd) .ok
  · rw [hs]; exact inv_fail (inv_clearValid hd) .deviceDisconnected op
  · rw [hs]; exact inv_fail (inv_clearValid hd) .deviceNotFound op

end

/-! ### The axis mapper and the frame packer -/

theorem clampExt_le (n : ExtInt) (hi : Nat) : clampExt n 0 hi ≤ hi := by
  unfold clampExt
  split
  · exact Nat.zero_le hi
  · exact le_rfl
  · split
    · exact Nat.zero_le hi
    · split <;> omega

theorem sym_le (away : Bool) (v : AxisWord) : sym away v ≤ 100 := by
  unfold sym
  split
  · decide
  · exact clampExt_le _ 100

theorem symInv_le (away : Bool) (v : AxisWord) : symInv away v ≤ 100 := sym_le away (fneg64 v)

theorem half_le (away : Bool) (v : AxisWord) : half away v ≤ 100 := by
  unfold half
  split
  · decide
  · dsimp only
    split
    · decide
    · exact clampExt_le _ 100

theorem toNat_percentByte_le {n : Nat} (hn : n ≤ 100) : (percentByte n).toNat ≤ 100 :=
  (Nat.mod_le _ _).trans hn

theorem toNat_snapButtonByte_le (s : State) (b : Nat) : (snapButtonByte s b).toNat ≤ 100 := by
  unfold snapButtonByte
  split <;> decide

/-- The motor frame of any snapshot has only bytes that may be sent (43_frame_packer.md R175). -/
theorem frameOfSnapshot_wireBytes (s : State) : ∀ b ∈ (motorCells (frameOfSnapshot s)).toList, WireByte b := by
  simp only [motorCells, frameOfSnapshot, List.forall_mem_cons, Vector.toList_mk]
  have hsym (i : Nat) := toNat_percentByte_le (sym_le s.roundTie (snapAxis s i))
  have hinv := toNat_percentByte_le (symInv_le s.roundTie (snapAxis s 4))
  have hhalf := toNat_percentByte_le (half_le s.roundTie (snapAxis s 1))
  simp [WireByte, hsym, hinv, hhalf, toNat_snapButtonByte_le]

section
variable {s : State} (h : Inv s)
include h

theorem inv_setAxout {n : Nat} (hn : n ≤ 100) : Inv (setAxout n s) :=
  { h with axout_range := toNat_percentByte_le hn }

theorem inv_mapAxis (op : Byte) {f : Bool → AxisWord → Nat} (hf : ∀ away v, f away v ≤ 100) (i : Byte) :
    Inv (mapAxis op f i s) := by
  obtain ⟨-, hm⟩ | ⟨-, hm⟩ := mapAxis_cases op f i s
  · rw [hm]; exact inv_fail h .badIndex op
  · rw [hm]; exact inv_done (inv_setAxout h (hf _ _)) .ok

theorem inv_assembleMotor {f : MotorFrame} (hf : ∀ b ∈ (motorCells f).toList, WireByte b) :
    Inv (assembleMotor f s) :=
  { h with
    flen_values := .inr (.inr rfl)
    buffer_alphabet := hf
    frame_head := ⟨fun _ => rfl, nofun⟩ }

theorem inv_assembleReset : Inv (assembleReset s) :=
  { h with
    flen_values := .inr (.inl rfl)
    buffer_alphabet := fun b hb => by
      have hset : b ∈ s.fbuf.set 0 251#8 := Vector.mem_toList_iff.mp hb
      obtain hb | rfl := Vector.mem_or_eq_of_mem_set hset
      · exact h.buffer_alphabet b (Vector.mem_toList_iff.mpr hb)
      · exact .inr (.inr rfl)
    frame_head := ⟨nofun, fun _ => Vector.getElem_set_self _⟩ }

theorem inv_encodeOp (op : Byte) : Inv (encodeOp op s) := by
  obtain ⟨-, he⟩ | ⟨-, -, he⟩ | ⟨-, -, -, he⟩ := encodeOp_cases op s
  · rw [he]; exact inv_done (inv_dropFrame h) .nullSnapshot
  · rw [he]; exact inv_fail (inv_dropFrame h) .unsupportedDevice op
  · rw [he]; exact inv_done (inv_assembleMotor h (frameOfSnapshot_wireBytes s)) .ok

theorem inv_encodeResetOp : Inv (encodeResetOp s) := inv_done (inv_assembleReset h) .ok

/-! ### The transmitter -/

theorem inv_setTxResult {c : ResultCode} (hc : codeByte c ∈ [0x00#8, 0x05#8, 0x11#8, 0x12#8]) :
    Inv (setTxResult c s) :=
  { h with tx_listed := hc }

/-- The wire grows by bytes of the buffer only (R43 (g)). -/
theorem inv_emitWire_bufferBytes (n : Nat) : Inv (emitWire (bufferBytes s n) s) :=
  { h with
    wire_alphabet := fun b hb => by
      obtain hb | hb := List.mem_append.mp hb
      · exact h.wire_alphabet b hb
      · exact h.buffer_alphabet b (List.mem_of_mem_take hb) }

theorem inv_emitInbound (bytes : List Byte) : Inv (emitInbound bytes s) := { h with }

theorem inv_clearInbound : Inv (clearInbound s) := { h with rxq_bound := Nat.zero_le _ }

theorem inv_portUp (hl : s.loop ≠ loopShutdown) : Inv (portUp s) :=
  { inv_clearInbound h with
    ticking_open := fun _ => rfl
    shutdown_quiet := fun hs => absurd hs hl }

theorem inv_portDown (hl : s.loop ≠ loopTicking) : Inv (portDown s) :=
  { inv_clearInbound h with
    ticking_open := fun ht => absurd ht hl
    shutdown_quiet := fun hs => ⟨rfl, (h.shutdown_quiet hs).2⟩ }

theorem inv_sendOp (op : Byte) : Inv (sendOp op s) := by
  have sent (n : Nat) : Inv (dropFrame (emitWire (bufferBytes s n) (drawTx s))) :=
    inv_dropFrame (inv_emitWire_bufferBytes (inv_drawTx h) n)
  obtain ⟨-, hs⟩ | ⟨-, -, hs⟩ | ⟨-, -, -, hs⟩ | ⟨-, -, -, hs⟩ := sendOp_cases op s
  · rw [hs]; exact inv_fail (inv_setTxResult (inv_dropFrame h) (by decide)) .notOpen op
  · rw [hs]; exact inv_done (inv_setTxResult h (by decide)) .noFrame
  · rw [hs]; exact inv_done (inv_setTxResult (sent _) (by decide)) .ok
  · rw [hs]; exact inv_fail (inv_setTxResult (sent _) (by decide)) .writeTimeout op

theorem inv_openFailed {c : ResultCode} (op : Byte) (hc : codeByte c ∈ [0x00#8, 0x03#8, 0x04#8]) :
    Inv (openFailed c op s) :=
  inv_fail (inv_enterShutdown h hc) c op

theorem inv_openOp (op : Byte) (hl : s.loop = loopIdle) : Inv (openOp op s) := by
  have hd : Inv (drawOpen s) := inv_drawOpen h
  obtain ⟨-, ho⟩ | ⟨-, -, ho⟩ | ⟨-, -, ho⟩ | ⟨-, -, ho⟩ := openOp_cases op s
  · rw [ho]; exact inv_fail h .badState op
  · rw [ho]; exact inv_done (inv_portUp hd (by simp [hl, loopIdle, loopShutdown])) .ok
  · rw [ho]; exact inv_openFailed hd op (by decide)
  · rw [ho]; exact inv_openFailed hd op (by decide)

theorem inv_closeOp (hl : s.loop = loopIdle) : Inv (closeOp s) :=
  inv_done (inv_portDown h (by simp [hl, loopIdle, loopTicking])) .ok

theorem inv_pollInboundOp (op : Byte) : Inv (pollInboundOp op s) := by
  obtain ⟨-, hp⟩ | ⟨-, hp⟩ := pollInboundOp_cases op s
  · rw [hp]; exact inv_fail (inv_emitInbound h []) .notOpen op
  · rw [hp]; exact inv_done (inv_clearInbound (inv_emitInbound h s.rxq)) .ok

end

/-! ### The sequencer -/

theorem openFailed_loop (c : ResultCode) (op : Byte) (s : State) :
    (openFailed c op s).loop = loopShutdown := by
  rw [openFailed, fail_eq]; rfl

/-- An OPEN of a closed port that does not shut the block down has opened the port. -/
theorem openOp_port {op : Byte} {s : State} (hp : s.port = false)
    (hl : (openOp op s).loop ≠ loopShutdown) : (openOp op s).port = true := by
  obtain ⟨hopen, -⟩ | ⟨-, -, ho⟩ | ⟨-, -, ho⟩ | ⟨-, -, ho⟩ := openOp_cases op s
  · cases hp.symm.trans hopen
  · rw [ho]; rfl
  · exact absurd (ho ▸ openFailed_loop _ _ _) hl
  · exact absurd (ho ▸ openFailed_loop _ _ _) hl

section
variable {s : State} (h : Inv s)
include h

theorem inv_startOp (hl : s.loop = loopIdle) : Inv (startOp s) := by
  have ho : Inv (openOp opStart s) := inv_openOp h opStart hl
  obtain ⟨hp, hs⟩ | ⟨-, -, hs⟩ | ⟨hp, hup, hs⟩ := startOp_cases s
  · rw [hs]; exact inv_done (inv_enterTicking h hp) .ok
  · rw [hs]; exact ho
  · rw [hs]; exact inv_done (inv_enterTicking ho (openOp_port hp hup)) .ok

theorem inv_quitOp : Inv (quitOp s) := by
  obtain ⟨-, hq⟩ | ⟨-, hq⟩ := quitOp_cases s
  · rw [hq]; exact inv_done h .ok
  · rw [hq]; exact inv_done (inv_enterShutdown h h.fatal_listed) .ok

theorem inv_resetReqOp : Inv (resetReqOp s) := inv_sendOp (inv_encodeResetOp h) opResetReq

theorem inv_tickStages : Inv (tickStages s) := by
  have he : Inv (encodeOp opTick s) := inv_encodeOp h opTick
  simp only [tickStages]
  split
  · split
    · exact inv_sendOp he opTick
    · exact he
  · exact h

theorem inv_tickOp (ht : s.tickPend ≠ 0#16) : Inv (tickOp s) :=
  inv_display (inv_tickStages (inv_sampleOp (inv_takeTick h ht) opTick))

/-- Each command of the host keeps the invariant. The commands legal in IDLE only use that they run there. -/
theorem inv_exec_hostCommand {i : Instr} {t : State} (hi : IsHostCommand i) (ht : exec i s = .next t) :
    Inv t := by
  cases i with
  | nop => exact inv_of_whenLegal h ht fun _ => inv_done h .ok
  | start => exact inv_of_whenLegal h ht fun hl => inv_startOp h ((legalIdle_iff _).mp hl)
  | quit => exact inv_of_whenLegal h ht fun _ => inv_quitOp h
  | resetReq => exact inv_of_whenLegal h ht fun _ => inv_resetReqOp h
  | pollInbound => exact inv_of_whenLegal h ht fun _ => inv_pollInboundOp h _
  | mapSym index => exact inv_of_whenLegal h ht fun _ => inv_mapAxis h _ sym_le index
  | mapSymInv index => exact inv_of_whenLegal h ht fun _ => inv_mapAxis h _ symInv_le index
  | mapHalf index => exact inv_of_whenLegal h ht fun _ => inv_mapAxis h _ half_le index
  | sample => exact inv_of_whenLegal h ht fun _ => inv_sampleOp h _
  | encode => exact inv_of_whenLegal h ht fun _ => inv_encodeOp h _
  | encodeReset => exact inv_of_whenLegal h ht fun _ => inv_encodeResetOp h
  | send => exact inv_of_whenLegal h ht fun _ => inv_sendOp h _
  | openPort => exact inv_of_whenLegal h ht fun hl => inv_openOp h _ ((legalIdle_iff _).mp hl)
  | closePort => exact inv_of_whenLegal h ht fun hl => inv_closeOp h ((legalIdle_iff _).mp hl)
  | tick | axisMotion | buttonDown | buttonUp | hatMotion | deviceRemoved | motorFrame | resetFrame =>
    exact hi.elim

theorem inv_execWord (w : CommandWord) {t : State} (ht : execWord w s = .next t) : Inv t := by
  obtain ⟨i, hi, hw⟩ | ⟨-, hw⟩ := execWord_cases w s
  · exact inv_exec_hostCommand h (decodeHostWord_isHostCommand hi) (hw.symm.trans ht)
  · cases hw.symm.trans ht
    exact inv_fail h .illegalCommand (opField w)

/-! ### The agents -/

theorem inv_dequeue {w : CommandWord} {rest : List CommandWord} (hq : s.hcq = w :: rest) :
    Inv { s with hcq := rest } :=
  { h with
    hcq_bound := by
      have hle : s.hcq.length ≤ s.params.hcqCap := h.hcq_bound
      rw [hq, List.length_cons] at hle
      exact Nat.le_of_succ_le hle }

theorem inv_seqStep {t : State} (ht : seqStep s = .next t) : Inv t := by
  obtain ⟨w, rest, hq, hs⟩ | ⟨-, hdue, hs⟩ | ⟨-, -, hs⟩ := seqStep_cases s
  · exact inv_execWord (inv_dequeue h hq) w (hs.symm.trans ht)
  · cases hs.symm.trans ht
    exact inv_tickOp h ((tickDue_iff s).mp hdue).2
  · cases hs.symm.trans ht
    exact h

/-- The backlog stays within its bound, which is below 2^16: the increment does not wrap. -/
theorem inv_timerStep : Inv (timerStep s) := by
  unfold timerStep
  split
  next hc =>
    obtain ⟨hl, hroom⟩ := hc
    obtain ⟨-, -, -, -, -, -, -, -, -, -, hmax⟩ := h.params_legal
    exact { h with
      shutdown_quiet := fun hs => by
        rw [hl] at hs
        cases hs
      tick_bound := by
        have hsucc : (s.tickPend + 1#16).toNat = s.tickPend.toNat + 1 := by bv_omega
        exact hsucc.trans_le hroom }
  next => exact h

/-- A removal detaches the device, so it is the only one queued; another record is taken only with room left
(42_snapshot.md R141). -/
theorem inv_deviceStep (e : EventWord) : Inv (deviceStep e s) := by
  unfold deviceStep
  split
  next hc =>
    have hattached : s.devAttached = true := ((Bool.and_eq_true _ _).mp hc).1
    have hremoval := h.evq_removal
    have hordinary := h.evq_ordinary
    split
    next he =>
      exact { h with
        evq_ordinary := by simpa [ordinaryRecords, he] using hordinary
        evq_removal := by simpa [removals, he, hattached] using hremoval }
    next he =>
      split
      next hroom =>
        have hle : (ordinaryRecords s.evq).length ≤ s.evq.length := List.length_filter_le _ _
        exact { h with
          evq_ordinary := by
            simpa [ordinaryRecords, he] using hle.trans_lt hroom
          evq_removal := by simpa [removals, he] using hremoval }
      next => exact h
  next => exact h

theorem inv_enqueueStep (w : CommandWord) : Inv (enqueueStep w s) := by
  unfold enqueueStep
  split
  next hroom => exact { h with hcq_bound := by simpa using hroom }
  next => exact h

theorem inv_readStep (addr : Byte) : Inv (readStep addr s) := { h with }

theorem inv_lineStep (b : Byte) : Inv (lineStep b s) := by
  unfold lineStep
  split
  next hc =>
    have hroom : s.rxq.length < s.params.rxCap := of_decide_eq_true ((Bool.and_eq_true _ _).mp hc).2
    exact { h with rxq_bound := by simpa using hroom }
  next => exact h

theorem inv_agentStep (a : AgentStep) {t : State} (ht : agentStep a s = .next t) : Inv t := by
  cases a with
  | seq => exact inv_seqStep h ht
  | timer => cases ht; exact inv_timerStep h
  | device e => cases ht; exact inv_deviceStep h e
  | enqueue w => cases ht; exact inv_enqueueStep h w
  | read addr => cases ht; exact inv_readStep h addr
  | line b => cases ht; exact inv_lineStep h b

theorem inv_setAgenda (rest : List AgentStep) : Inv { s with agenda := rest } := { h with }

theorem inv_step {t : State} (ht : step s = .next t) : Inv t := by
  obtain hs | ⟨a, rest, -, hs⟩ := step_cases s
  · exact inv_seqStep h (hs.symm.trans ht)
  · exact inv_agentStep (inv_setAgenda h rest) a (hs.symm.trans ht)

end

/-- Settles O53. -/
theorem stepKeepsInv : Obligations.StepKeepsInv := fun _ _ h ht => inv_step h ht

end Sys2Proof.Proofs.State
end

section
/-! The statements of 20_memory.md: the register map of the read space (R62, R63) and the host's read of a
register (R61).

An address is split once by its part of the read space (the status registers, the frame buffer, the three
snapshot windows), with one equation of `regRead` per part; the map is read off these equations. -/

namespace Sys2Proof.Proofs.Memory

open Sys2Proof.Machine

/-! ### The parts of the read space -/

section
variable (s : State)

theorem regRead_statusRegister {a : Byte} (ha : a.toNat < 0x20) : regRead s a = statusRegister s a.toNat :=
  if_pos ha

/-- The 32 addresses of the frame buffer; the buffer ends after 17 of them. -/
theorem regRead_frameBuffer {a : Byte} (hlo : 0x20 ≤ a.toNat) (hhi : a.toNat < 0x40) :
    regRead s a = (s.fbuf.toList.getD (a.toNat - 0x20) 0#8).setWidth 64 := by
  simp only [regRead, if_neg hlo.not_gt, if_pos hhi]

/-- An address given by its offset in a part of the read space does not wrap. -/
theorem toNat_address {base i : Nat} (h : base + i < 0x100) : (BitVec.ofNat 8 (base + i)).toNat = base + i :=
  Nat.mod_eq_of_lt h

theorem regRead_axisWindow {i : Nat} (hi : i < 64) :
    regRead s (BitVec.ofNat 8 (0x40 + i)) = if i < s.params.maxAx then s.snapAx.getD i 0#64 else 0#64 := by
  simp (disch := omega) only [regRead, toNat_address, if_neg, if_pos, Nat.add_sub_cancel_left, snapAxis]

theorem regRead_buttonWindow {i : Nat} (hi : i < 64) :
    regRead s (BitVec.ofNat 8 (0x80 + i)) =
      if i < s.params.maxBtn then bit (s.snapBtn.getD i false) else 0#64 := by
  simp (disch := omega) only [regRead, toNat_address, if_neg, if_pos, Nat.add_sub_cancel_left]

theorem regRead_hatWindow {i : Nat} (hi : i < 64) :
    regRead s (BitVec.ofNat 8 (0xC0 + i)) =
      if i < s.params.maxHat then (s.snapHat.getD i 0#4).setWidth 64 else 0#64 := by
  simp (disch := omega) only [regRead, toNat_address, if_neg, Nat.add_sub_cancel_left]

/-! ### The reserved addresses and the frame cells -/

theorem statusRegister_of_ge {a : Nat} (ha : 0x14 ≤ a) : statusRegister s a = 0#64 := by
  obtain ⟨k, rfl⟩ := Nat.exists_eq_add_of_le' ha
  rfl

/-- The reserved addresses read 0, past the status registers and past the frame buffer (R63). -/
theorem regRead_reserved {a : Byte}
    (ha : (0x14 ≤ a.toNat ∧ a.toNat ≤ 0x1F) ∨ (0x31 ≤ a.toNat ∧ a.toNat ≤ 0x3F)) : regRead s a = 0#64 := by
  obtain ⟨hlo, hhi⟩ | ⟨hlo, hhi⟩ := ha
  · rw [regRead_statusRegister s (by omega), statusRegister_of_ge s hlo]
  · have hend : s.fbuf.toList.length ≤ a.toNat - 0x20 := by rw [Vector.length_toList]; omega
    rw [regRead_frameBuffer s (by omega) (by omega), List.getD_eq_default _ _ hend]
    rfl

theorem regRead_frameCell (j : Fin 17) :
    regRead s (BitVec.ofNat 8 (0x20 + j.val)) = s.fbuf[j].setWidth 64 := by
  have haddr : (BitVec.ofNat 8 (0x20 + j.val)).toNat = 0x20 + j.val := toNat_address (by omega)
  have hcell : s.fbuf.toList.getD j.val 0#8 = s.fbuf[j] := by simp
  rw [regRead_frameBuffer s (by omega) (by omega), haddr, Nat.add_sub_cancel_left, hcell]

/-! ### The packed status registers -/

theorem toNat_deviceStatus :
    (deviceStatus s).toNat = s.devPresent.toNat + 2 * s.devLost.toNat + 4 * s.devFound.toNat := by
  unfold deviceStatus
  cases s.devPresent <;> cases s.devLost <;> cases s.devFound <;> rfl

theorem toNat_snapshotStatus : (snapshotStatus s).toNat = s.snapValid.toNat + 2 * s.snapEver.toNat := by
  unfold snapshotStatus
  cases s.snapValid <;> cases s.snapEver <;> rfl

end

/-- Settles O50, the parts of the map in the order of their addresses. -/
theorem registerMap : Obligations.RegisterMap := fun s =>
  ⟨rfl, rfl, toNat_deviceStatus s, rfl, rfl, rfl, toNat_snapshotStatus s, rfl, rfl, rfl, rfl, rfl, rfl,
   toNat_atWidth 0x0D#8, toNat_atWidth 0x0E#8, toNat_atWidth 0x0F#8, rfl, rfl, rfl, rfl,
   fun _ ha => regRead_reserved s ha, regRead_frameCell s,
   fun _ hi => regRead_axisWindow s hi, fun _ hi => regRead_buttonWindow s hi,
   fun _ hi => regRead_hatWindow s hi⟩

/-! ### The host's read -/

/-- The agenda is the model's own field: no address of the read space shows it. -/
theorem regRead_setAgenda (s : State) (rest : List AgentStep) (a : Byte) :
    regRead { s with agenda := rest } a = regRead s a := rfl

/-- Settles O49: the read runs on the state its entry has left, and answers as before. -/
theorem registerReadHasNoSideEffect : Obligations.RegisterReadHasNoSideEffect := fun s more a h =>
  calc step s
    _ = .next (readStep a { s with agenda := more }) := Scope.step_of_agenda_cons h rfl
    _ = .next { s with agenda := more, reads := s.reads ++ [⟨a, regRead s a⟩] } := by
      rw [readStep, regRead_setAgenda]

end Sys2Proof.Proofs.Memory
end

section
/-! The statements of 30_encoding.md: decoder and encoder are inverse on all three encoded forms (R86, R87, R96,
R97, R101, R102), what a refused host word does (R88, R89), the axis index of a MAP command (R89), and the two
frame rows.

The decoder is inverted once: which words `indexedCommand` and `plainCommand` accept and what the accepted
instruction encodes to. The round trip and both refusal rules rest on that. -/

namespace Sys2Proof.Proofs.Encoding

open Sys2Proof.Machine Sys2Proof.Laws

/-! ### Decoding an encoding -/

/-- Settles O1, instruction by instruction. -/
theorem decodeOfEncodeIsIdentity : Obligations.DecodeOfEncodeIsIdentity := fun i h =>
  match i with
  | .nop => RoundTrip.nop h
  | .start => RoundTrip.start h
  | .quit => RoundTrip.quit h
  | .resetReq => RoundTrip.resetReq h
  | .tick => RoundTrip.tick h
  | .pollInbound => RoundTrip.pollInbound h
  | .mapSym a => RoundTrip.mapSym a h
  | .mapSymInv a => RoundTrip.mapSymInv a h
  | .mapHalf a => RoundTrip.mapHalf a h
  | .sample => RoundTrip.sample h
  | .encode => RoundTrip.encode h
  | .encodeReset => RoundTrip.encodeReset h
  | .send => RoundTrip.send h
  | .openPort => RoundTrip.openPort h
  | .closePort => RoundTrip.closePort h
  | .axisMotion a v => RoundTrip.axisMotion a v h
  | .buttonDown a v => RoundTrip.buttonDown a v h
  | .buttonUp a v => RoundTrip.buttonUp a v h
  | .hatMotion a v => RoundTrip.hatMotion a v h
  | .deviceRemoved a v => RoundTrip.deviceRemoved a v h
  | .motorFrame f => RoundTrip.motorFrame f h
  | .resetFrame => RoundTrip.resetFrame h

/-! ### A word is its fields -/

theorem commandOf_fields (w : CommandWord) : commandOf (opField w) (argField w) = w := by
  apply BitVec.eq_of_toNat_eq
  simp only [toNat_commandOf, opField, argField, BitVec.extractLsb'_toNat, Nat.shiftRight_eq_div_pow]
  have := w.isLt
  omega

theorem eventOf_fields (e : EventWord) : eventOf (etypeField e) (indexField e) (valueField e) = e := by
  apply BitVec.eq_of_toNat_eq
  simp only [toNat_eventOf, etypeField, indexField, valueField, BitVec.extractLsb'_toNat,
    Nat.shiftRight_eq_div_pow]
  have := e.isLt
  omega

/-! ### The opcode tables (R87) -/

/-- An encoded form stands for an instruction: it is the encoding, and the instruction is admitted. -/
def Encodes (i : Instr) (x : Encoded) : Prop := encode i = x ∧ i.wellFormed = true

theorem indexedCommand_encodes {op arg : Byte} {i : Instr} (h : indexedCommand op arg = some i) :
    Encodes i (.command (commandOf op arg)) := by
  unfold indexedCommand at h
  split at h <;> cases h
  all_goals next hop => obtain ⟨-, rfl⟩ := BitVec.toNat_eq_nat.mp hop; exact ⟨rfl, rfl⟩

theorem plainCommand_encodes {op : Byte} {i : Instr} (h : plainCommand op = some i) :
    Encodes i (.command (commandOf op 0#8)) := by
  unfold plainCommand at h
  split at h <;> cases h
  all_goals next hop => obtain ⟨-, rfl⟩ := BitVec.toNat_eq_nat.mp hop; exact ⟨rfl, rfl⟩

theorem indexedCommand_opcode {op arg : Byte} {i : Instr} (h : indexedCommand op arg = some i) :
    0x09 ≤ op.toNat ∧ op.toNat ≤ 0x0B := by
  unfold indexedCommand at h
  split at h <;> cases h <;> omega

theorem plainCommand_opcode {op : Byte} {i : Instr} (h : plainCommand op = some i) :
    op.toNat ≤ 0x04 ∨ op.toNat = 0x08 ∨ (0x10 ≤ op.toNat ∧ op.toNat ≤ 0x15) := by
  unfold plainCommand at h
  split at h <;> cases h <;> omega

/-! ### The command decoder -/

/-- A command word that decodes: a MAP command with its index, or another command with `ARG = 0` (R89). -/
theorem decodeCommand_ok_cases {w : CommandWord} {i : Instr} (h : decodeCommand w = .ok i) :
    indexedCommand (opField w) (argField w) = some i ∨
    (plainCommand (opField w) = some i ∧ argField w = 0#8) := by
  unfold decodeCommand at h
  split at h
  next hindexed => cases h; exact .inl hindexed
  next =>
    split at h
    · cases h
    next hplain =>
      split at h <;> cases h
      next harg => exact .inr ⟨hplain, harg⟩

/-- A host word that decodes is a command word that does, and no TICK (R88). -/
theorem decodeHostWord_eq_ok_iff {w : CommandWord} {i : Instr} :
    decodeHostWord w = .ok i ↔ opField w ≠ 0x04#8 ∧ decodeCommand w = .ok i := by
  unfold decodeHostWord
  split <;> simp [*]

theorem decodeHostWord_of_indexedCommand {op arg : Byte} {i : Instr} (h : indexedCommand op arg = some i) :
    decodeHostWord (commandOf op arg) = .ok i := by
  have hop : op ≠ 0x04#8 := fun htick => by
    have := indexedCommand_opcode h
    simp [htick] at this
  simp [decodeHostWord_eq_ok_iff, decodeCommand, opField_commandOf, argField_commandOf, h, hop]

theorem decodeCommand_encodes {w : CommandWord} {i : Instr} (h : decodeCommand w = .ok i) :
    Encodes i (.command w) := by
  rw [← commandOf_fields w]
  obtain hindexed | ⟨hplain, harg⟩ := decodeCommand_ok_cases h
  · exact indexedCommand_encodes hindexed
  · rw [harg]; exact plainCommand_encodes hplain

/-! ### The event and frame decoders -/

theorem decodeEvent_encodes {e : EventWord} {i : Instr} (h : decodeEvent e = .ok i) :
    Encodes i (.event e) := by
  rw [← eventOf_fields e]
  unfold decodeEvent at h
  split at h <;> cases h
  all_goals next htype => rw [(BitVec.toNat_eq_nat.mp htype).2]; exact ⟨rfl, rfl⟩

theorem payload_of_motorPayload {bytes : List Byte} {f : MotorFrame} (h : motorPayload bytes = some f) :
    f.payload = bytes := by
  unfold motorPayload at h
  split at h <;> cases h
  rfl

theorem decodeFrame_encodes {bytes : List Byte} {i : Instr} (h : decodeFrame bytes = .ok i) :
    Encodes i (.frame bytes) := by
  cases bytes with
  | nil => cases h
  | cons head payload =>
    simp only [decodeFrame] at h
    split at h
    next hmotor =>
      split at h
      · cases h
      next f hpayload =>
        split at h <;> cases h
        next hranges => exact ⟨by rw [encode, hmotor, payload_of_motorPayload hpayload], hranges⟩
    next =>
      split at h
      next hreset =>
        split at h <;> cases h
        next hempty => exact ⟨by rw [encode, hreset, hempty], rfl⟩
      · cases h

/-- Settles O2, form by form. -/
theorem encodeOfDecodeIsIdentity : Obligations.EncodeOfDecodeIsIdentity := fun x _ h =>
  match x with
  | .command _ => decodeCommand_encodes h
  | .event _ => decodeEvent_encodes h
  | .frame _ => decodeFrame_encodes h

/-! ### A host word that is no command (R88, R89) -/

/-- The whole effect of a host word that decodes to nothing: it leaves the queue, and IllegalCommand is
reported and logged with its `OP`. -/
theorem step_of_undecodable {s : State} {w : CommandWord} {rest : List CommandWord} (ha : s.agenda = [])
    (hq : s.hcq = w :: rest) (hw : ∀ i, decodeHostWord w ≠ .ok i) :
    step s = .next { s with
      hcq := rest, result := 0x14#8, log := s.log ++ [⟨0x14#8, opField w⟩] } := by
  obtain ⟨i, hi, -⟩ | ⟨-, hexec⟩ := execWord_cases w { s with hcq := rest }
  · exact absurd hi (hw i)
  · calc step s
      _ = seqStep s := Scope.step_of_agenda_nil ha
      _ = execWord w { s with hcq := rest } := by simp only [seqStep, hq]
      _ = .next (fail .illegalCommand (opField w) { s with hcq := rest }) := hexec
      _ = _ := by rw [fail_eq]; rfl

/-- Settles O4: no host word with such an opcode decodes. -/
theorem reservedOpcodeIsIllegalCommand : Obligations.ReservedOpcodeIsIllegalCommand := by
  intro s w rest ha hq hop
  refine step_of_undecodable ha hq fun i hi => ?_
  obtain ⟨htick, hcommand⟩ := decodeHostWord_eq_ok_iff.mp hi
  have hne : (opField w).toNat ≠ 0x04 := fun h => htick (BitVec.eq_of_toNat_eq h)
  obtain hindexed | ⟨hplain, -⟩ := decodeCommand_ok_cases hcommand
  · have := indexedCommand_opcode hindexed
    omega
  · have := plainCommand_opcode hplain
    omega

/-- A nonzero `ARG` is left to the three MAP commands: with any other opcode the word decodes to nothing. -/
theorem decodeHostWord_ne_ok_of_nonzeroArg {w : CommandWord} (harg : argField w ≠ 0#8)
    (hop : (opField w).toNat < 0x09 ∨ 0x0B < (opField w).toNat) (i : Instr) : decodeHostWord w ≠ .ok i := by
  intro hi
  obtain hindexed | ⟨-, hzero⟩ := decodeCommand_ok_cases (decodeHostWord_eq_ok_iff.mp hi).2
  · have := indexedCommand_opcode hindexed
    omega
  · exact harg hzero

/-- A MAP command with an index past the capacity is BadIndex in every held loop state. -/
theorem whenLegal_mapAxis_badIndex (op : Byte) (f : Bool → AxisWord → Nat) {s : State} {index : Byte}
    (hl : s.loop ≠ 3#2) (hi : s.params.maxAx ≤ index.toNat) :
    whenLegal legalAlways op (mapAxis op f index) s =
      .next { s with result := 0x15#8, log := s.log ++ [⟨0x15#8, op⟩] } := by
  rw [whenLegal_legal op _ hl ((legalAlways_iff _).mpr hl), mapAxis, if_pos hi, fail_eq]
  rfl

/-- Settles O5: the refusal, the index as it stands, and its bound. -/
theorem operandRule : Obligations.OperandRule := by
  refine ⟨fun s w rest ha hq hop harg => ?_, fun index => ?_, fun s index hl hi => ?_⟩
  · refine step_of_undecodable ha hq (decodeHostWord_ne_ok_of_nonzeroArg harg ?_)
    simp only [List.mem_cons, List.not_mem_nil, or_false] at hop
    omega
  · exact ⟨decodeHostWord_of_indexedCommand rfl, decodeHostWord_of_indexedCommand rfl,
      decodeHostWord_of_indexedCommand rfl⟩
  · exact ⟨whenLegal_mapAxis_badIndex opMapSym sym hl hi,
      whenLegal_mapAxis_badIndex opMapSymInv symInv hl hi,
      whenLegal_mapAxis_badIndex opMapHalf half hl hi⟩

/-! ### Concrete words and the frame rows -/

/-- Settles O3, each word by evaluation of the decoder. -/
theorem specWordsDecode : Obligations.SpecWordsDecode := by
  refine ⟨?_, ?_, ?_, ?_, ?_, ?_, ?_, ?_⟩ <;> decide

/-- Settles O32: each row is one assembly in the buffer and `done(OK)`, and the cells are the head byte
followed by the payload. -/
theorem frameRowsFillTheBuffer : Obligations.FrameRowsFillTheBuffer :=
  ⟨fun _ _ => ⟨rfl, rfl⟩, fun _ => rfl⟩

end Sys2Proof.Proofs.Encoding
end

section
/-! The binary64 arithmetic of 00_scope.md R15 and the rounding of R16, as far as the axis mapper needs it: the
three operations are monotone, and so is the rounding to a percentage.

A word is a sign and 63 low bits, and the low bits of a word that is no NaN are in the order of its magnitude,
an infinity past every finite word. `fUnits` reads an infinity as the next number after the finite ones, so on
the words that are no NaN the order of `value64` is the order of these integers. -/

namespace Sys2Proof.Proofs.Binary64

open Sys2Proof.Machine

/-! ### A word is its sign and its low bits -/

/-- Bits 62:0. -/
def lowBits (a : AxisWord) : Nat := a.toNat % 2 ^ 63

/-- The magnitude that 63 low bits stand for, in units of 2^-1074. -/
def unitsOfBits (n : Nat) : Nat :=
  if n / 2 ^ 52 = 0 then n % 2 ^ 52 else (2 ^ 52 + n % 2 ^ 52) * 2 ^ (n / 2 ^ 52 - 1)

theorem fExponent_eq (a : AxisWord) : fExponent a = lowBits a / 2 ^ 52 := by
  simp only [fExponent, lowBits, BitVec.extractLsb'_toNat, Nat.shiftRight_eq_div_pow]
  omega

theorem fFraction_eq (a : AxisWord) : fFraction a = lowBits a % 2 ^ 52 := by
  simp only [fFraction, lowBits, BitVec.extractLsb'_toNat, Nat.shiftRight_eq_div_pow]
  omega

theorem fMagnitude_eq (a : AxisWord) : fMagnitude a = unitsOfBits (lowBits a) := by
  simp only [fMagnitude, unitsOfBits, fExponent_eq, fFraction_eq]

theorem isNaN64_eq_false_iff {a : AxisWord} : isNaN64 a = false ↔ lowBits a ≤ infBits := by
  have : lowBits a < 2 ^ 63 := Nat.mod_lt _ (Nat.two_pow_pos 63)
  simp only [isNaN64, infBits, fExponent_eq, fFraction_eq, Bool.and_eq_false_iff, decide_eq_false_iff_not]
  omega

theorem isInf64_iff {a : AxisWord} : isInf64 a = true ↔ lowBits a = infBits := by
  have : lowBits a < 2 ^ 63 := Nat.mod_lt _ (Nat.two_pow_pos 63)
  simp only [isInf64, infBits, fExponent_eq, fFraction_eq, Bool.and_eq_true, decide_eq_true_eq]
  omega

theorem fSign_eq (a : AxisWord) : fSign a = decide (2 ^ 63 ≤ a.toNat) := BitVec.msb_eq_decide a

theorem toNat_fPack (neg : Bool) {n : Nat} (h : n < 2 ^ 63) :
    (fPack neg n).toNat = n + if neg then 2 ^ 63 else 0 := by
  rw [fPack, BitVec.toNat_ofNat, Nat.mod_eq_of_lt]
  split <;> omega

theorem fSign_fPack (neg : Bool) {n : Nat} (h : n < 2 ^ 63) : fSign (fPack neg n) = neg := by
  rw [fSign_eq, toNat_fPack neg h]
  cases neg with
  | true => exact decide_eq_true (Nat.le_add_left _ n)
  | false => exact decide_eq_false h.not_ge

theorem lowBits_fPack (neg : Bool) {n : Nat} (h : n < 2 ^ 63) : lowBits (fPack neg n) = n := by
  rw [lowBits, toNat_fPack neg h]
  split <;> omega

/-! ### Negation -/

theorem fSign_fneg64 (a : AxisWord) : fSign (fneg64 a) = !fSign a := by
  simp [fSign, fneg64, BitVec.msb_xor, show (0x8000000000000000#64).msb = true from rfl]

theorem lowBits_fneg64 (a : AxisWord) : lowBits (fneg64 a) = lowBits a := by
  have hmod := Nat.xor_mod_two_pow (a := a.toNat) (b := 2 ^ 63) (n := 63)
  simpa [lowBits, fneg64] using hmod

theorem fneg64_fneg64 (a : AxisWord) : fneg64 (fneg64 a) = a := by
  simp [fneg64]

theorem isNaN64_fneg64 (a : AxisWord) : isNaN64 (fneg64 a) = isNaN64 a := by
  simp only [isNaN64, fExponent_eq, fFraction_eq, lowBits_fneg64]

theorem isInf64_fneg64 (a : AxisWord) : isInf64 (fneg64 a) = isInf64 a := by
  simp only [isInf64, fExponent_eq, fFraction_eq, lowBits_fneg64]

theorem fUnits_fneg64 (a : AxisWord) : fUnits (fneg64 a) = -fUnits a := by
  simp only [fUnits, fSign_fneg64, fMagnitude_eq, lowBits_fneg64]
  cases fSign a <;> simp

/-! ### The low bits are in the order of the magnitude -/

/-- A significand of up to 53 bits at spacing `2^e`, as `roundMag` packs it: the carry `q = 2^53` adds one to the
exponent field, and without the implicit bit only the smallest spacing occurs. -/
theorem unitsOfBits_significand {e q : Nat} (hq : q ≤ 2 ^ 53) (hlow : 2 ^ 52 ≤ q ∨ e = 0) :
    unitsOfBits (e * 2 ^ 52 + q) = q * 2 ^ e := by
  unfold unitsOfBits
  by_cases hsub : q < 2 ^ 52
  · obtain rfl : e = 0 := by omega
    rw [if_pos (by omega)]
    omega
  · by_cases hcarry : q = 2 ^ 53
    · rw [show (e * 2 ^ 52 + q) / 2 ^ 52 = e + 1 + 1 by omega, show (e * 2 ^ 52 + q) % 2 ^ 52 = 0 by omega,
        if_neg (by omega), Nat.add_sub_cancel, hcarry, Nat.pow_succ]
      omega
    · rw [show (e * 2 ^ 52 + q) / 2 ^ 52 = e + 1 by omega, if_neg (by omega), Nat.add_sub_cancel,
        show 2 ^ 52 + (e * 2 ^ 52 + q) % 2 ^ 52 = q by omega]

theorem exists_significand (n : Nat) :
    ∃ e q, n = e * 2 ^ 52 + q ∧ q < 2 ^ 53 ∧ (2 ^ 52 ≤ q ∨ e = 0) :=
  ⟨n / 2 ^ 52 - 1, n - (n / 2 ^ 52 - 1) * 2 ^ 52, by omega, by omega, by omega⟩

theorem unitsOfBits_le_succ (n : Nat) : unitsOfBits n ≤ unitsOfBits (n + 1) := by
  obtain ⟨e, q, rfl, hq, hlow⟩ := exists_significand n
  rw [Nat.add_assoc, unitsOfBits_significand hq.le hlow, unitsOfBits_significand (by omega) (by omega)]
  exact Nat.mul_le_mul_right _ (Nat.le_succ q)

theorem unitsOfBits_mono : Monotone unitsOfBits := monotone_nat_of_le_succ unitsOfBits_le_succ

theorem unitsOfBits_lt_infinity {n : Nat} (h : n < infBits) : unitsOfBits n < unitsOfBits infBits :=
  calc unitsOfBits n
    _ ≤ unitsOfBits (infBits - 1) := unitsOfBits_mono (Nat.le_sub_one_of_lt h)
    _ < unitsOfBits infBits := by decide +kernel

/-! ### The integers a word and its sign stand for -/

/-- The value 1 in units of 2^-1074. A name keeps the power from being evaluated. -/
def unitsPerOne : Nat := 2 ^ 1074

theorem unitsPerOne_pos : 0 < unitsPerOne := by decide +kernel

/-- A magnitude with the sign bit of a word. -/
def withSign (neg : Bool) (m : Nat) : Int := if neg then -(m : Int) else m

theorem withSign_true (m : Nat) : withSign true m = -(m : Int) := rfl

theorem withSign_mul (neg : Bool) (m k : Nat) : withSign neg (m * k) = withSign neg m * k := by
  cases neg <;> simp [withSign]

theorem fUnits_eq (a : AxisWord) : fUnits a = withSign (fSign a) (unitsOfBits (lowBits a)) := by
  rw [← fMagnitude_eq]; rfl

theorem fUnits_fPack (neg : Bool) {n : Nat} (h : n ≤ infBits) :
    fUnits (fPack neg n) = withSign neg (unitsOfBits n) := by
  have hn : n < 2 ^ 63 := h.trans_lt (by decide)
  rw [fUnits_eq, fSign_fPack neg hn, lowBits_fPack neg hn]

theorem isNaN64_fPack (neg : Bool) {n : Nat} (h : n ≤ infBits) : isNaN64 (fPack neg n) = false := by
  rw [isNaN64_eq_false_iff, lowBits_fPack neg (h.trans_lt (by decide))]
  exact h

theorem fUnits_bounds {a : AxisWord} (h : isNaN64 a = false) :
    -(unitsOfBits infBits : Int) ≤ fUnits a ∧ fUnits a ≤ unitsOfBits infBits := by
  have := unitsOfBits_mono (isNaN64_eq_false_iff.mp h)
  rw [fUnits_eq, withSign]
  split <;> omega

theorem fUnits_of_isInf64 {a : AxisWord} (h : isInf64 a = true) :
    fUnits a = withSign (fSign a) (unitsOfBits infBits) := by
  rw [fUnits_eq, isInf64_iff.mp h]

theorem fUnits_bounds_of_finite {a : AxisWord} (hn : isNaN64 a = false) (hi : isInf64 a = false) :
    -(unitsOfBits infBits : Int) < fUnits a ∧ fUnits a < unitsOfBits infBits := by
  have hne : lowBits a ≠ infBits := fun h => by simp [isInf64_iff.mpr h] at hi
  have := unitsOfBits_lt_infinity (lt_of_le_of_ne (isNaN64_eq_false_iff.mp hn) hne)
  rw [fUnits_eq, withSign]
  split <;> omega

theorem value64_of_infinite {a : AxisWord} (h : isInf64 a = true) :
    value64 a = if fSign a then .negInf else .posInf := if_pos h

theorem value64_of_finite {a : AxisWord} (h : isInf64 a = false) : value64 a = .fin (fUnits a) := by
  rw [value64, h]; rfl

theorem fUnits_of_value64 {a : AxisWord} {u : Int} (h : value64 a = .fin u) : fUnits a = u := by
  cases hi : isInf64 a with
  | true => rw [value64_of_infinite hi] at h; split at h <;> cases h
  | false => rw [value64_of_finite hi] at h; cases h; rfl

/-- `value64` orders the words that are no NaN as their units. -/
theorem fUnits_le_of_extLe {a b : AxisWord} (ha : isNaN64 a = false) (hb : isNaN64 b = false)
    (h : extLe (value64 a) (value64 b) = true) : fUnits a ≤ fUnits b := by
  obtain ⟨ha₁, ha₂⟩ := fUnits_bounds ha
  obtain ⟨hb₁, hb₂⟩ := fUnits_bounds hb
  cases hia : isInf64 a with
  | true =>
    cases hsa : fSign a with
    | true => rw [fUnits_of_isInf64 hia, hsa]; exact hb₁
    | false =>
      cases hib : isInf64 b with
      | true =>
        cases hsb : fSign b with
        | true => simp [value64, hia, hsa, hib, hsb, extLe] at h
        | false => rw [fUnits_of_isInf64 hib, hsb]; exact ha₂
      | false => simp [value64, hia, hsa, hib, extLe] at h
  | false =>
    cases hib : isInf64 b with
    | true =>
      cases hsb : fSign b with
      | true => simp [value64, hia, hib, hsb, extLe] at h
      | false => rw [fUnits_of_isInf64 hib, hsb]; exact ha₂
    | false => simpa [value64, hia, hib, extLe] using h

/-! ### Division to the nearest integer -/

theorem divHalfEven_eq (num den : Nat) : divHalfEven num den = divNearest false num den := by
  simp [divHalfEven, divNearest]

theorem divNearest_bounds (away : Bool) (num den : Nat) :
    num / den ≤ divNearest away num den ∧ divNearest away num den ≤ num / den + 1 := by
  simp only [divNearest]
  split_ifs <;> omega

/-- Rounding to nearest is monotone: across quotients by its bounds, within one by the remainder. -/
theorem divNearest_mono (away : Bool) (den : Nat) : Monotone (divNearest away · den) := by
  intro m n hmn
  have hq : m / den ≤ n / den := Nat.div_le_div_right hmn
  obtain hlt | heq := hq.lt_or_eq
  · calc divNearest away m den
      _ ≤ m / den + 1 := (divNearest_bounds away m den).2
      _ ≤ n / den := hlt
      _ ≤ divNearest away n den := (divNearest_bounds away n den).1
  · have hr : m % den ≤ n % den := by
      have := Nat.div_add_mod m den
      have := Nat.div_add_mod n den
      rw [heq] at *
      omega
    simp only [divNearest, heq]
    split_ifs <;> omega

theorem divNearest_mul (away : Bool) (q : Nat) {den : Nat} (h : 0 < den) :
    divNearest away (q * den) den = q := by
  simp [divNearest, h]

/-- Halfway between `q` and `q + 1` the tie rule decides. -/
theorem divNearest_tie (away : Bool) (q k : Nat) :
    divNearest away ((2 * q + 1) * 2 ^ k) (2 ^ (k + 1)) =
      if !away && decide (q % 2 = 0) then q else q + 1 := by
  have hpos := Nat.two_pow_pos k
  have hpow : 2 ^ (k + 1) = 2 * 2 ^ k := Nat.pow_succ'
  have hnum : (2 * q + 1) * 2 ^ k = 2 ^ k + q * 2 ^ (k + 1) := by rw [hpow]; ring
  have hdiv : (2 * q + 1) * 2 ^ k / 2 ^ (k + 1) = q := by
    rw [hnum, Nat.add_mul_div_right _ _ (by omega), Nat.div_eq_of_lt (by omega), Nat.zero_add]
  have hmod : (2 * q + 1) * 2 ^ k % 2 ^ (k + 1) = 2 ^ k := by
    rw [hnum, Nat.add_mul_mod_self_right, Nat.mod_eq_of_lt (by omega)]
  simp only [divNearest, hdiv, hmod, ← hpow, lt_irrefl, if_false]

/-! ### Rounding to a word -/

/-- The spacing of the result of `roundMag`, as a power of two. -/
def spacing (num den : Nat) : Nat := Nat.log2 (num / den) - 52

theorem roundMag_eq (num den : Nat) : roundMag num den =
    min (spacing num den * 2 ^ 52 + divNearest false num (den * 2 ^ spacing num den)) infBits := by
  rw [← divHalfEven_eq]; rfl

theorem roundMag_le (num den : Nat) : roundMag num den ≤ infBits := Nat.min_le_right _ _

theorem log2_mono : Monotone Nat.log2 := fun m n h => by
  simpa only [Nat.log2_eq_log_two] using Nat.log_mono_right h

theorem spacing_mono (den : Nat) : Monotone (spacing · den) := fun _ _ h =>
  Nat.sub_le_sub_right (log2_mono (Nat.div_le_div_right h)) 52

/-- The significand has at most 53 bits, before a carry. -/
theorem significand_le (num : Nat) {den : Nat} (hden : 0 < den) :
    divNearest false num (den * 2 ^ spacing num den) ≤ 2 ^ 53 := by
  have hlog : num / den < 2 ^ (53 + spacing num den) :=
    Nat.lt_log2_self.trans_le (Nat.pow_le_pow_right (by decide) (by unfold spacing; omega))
  have hle : num ≤ 2 ^ 53 * (den * 2 ^ spacing num den) := by
    have := (Nat.div_lt_iff_lt_mul hden).mp hlog
    rw [Nat.pow_add] at this
    linarith
  calc divNearest false num (den * 2 ^ spacing num den)
    _ ≤ divNearest false (2 ^ 53 * (den * 2 ^ spacing num den)) (den * 2 ^ spacing num den) :=
      divNearest_mono false _ hle
    _ = 2 ^ 53 := divNearest_mul false _ (by positivity)

/-- Past the smallest spacing the significand has its implicit bit. -/
theorem le_significand {num den : Nat} (hden : 0 < den) (hs : 0 < spacing num den) :
    2 ^ 52 ≤ divNearest false num (den * 2 ^ spacing num den) := by
  have hlog : 2 ^ (52 + spacing num den) ≤ num / den := by
    have hne : num / den ≠ 0 := fun h => by simp [spacing, h] at hs
    have hexp : 52 + spacing num den = Nat.log2 (num / den) := by unfold spacing at hs ⊢; omega
    rw [hexp]
    exact Nat.log2_self_le hne
  have hle : 2 ^ 52 * (den * 2 ^ spacing num den) ≤ num := by
    have := (Nat.le_div_iff_mul_le hden).mp hlog
    rw [Nat.pow_add] at this
    linarith
  calc 2 ^ 52
    _ = divNearest false (2 ^ 52 * (den * 2 ^ spacing num den)) (den * 2 ^ spacing num den) :=
      (divNearest_mul false _ (by positivity)).symm
    _ ≤ divNearest false num (den * 2 ^ spacing num den) := divNearest_mono false _ hle

/-- roundTiesToEven is monotone: within a binade as the division is, and across binades because the significand
stays between its bounds. -/
theorem roundMag_mono {den : Nat} (hden : 0 < den) : Monotone (roundMag · den) := by
  intro m n hmn
  simp only [roundMag_eq]
  refine min_le_min_right infBits ?_
  have hspacing : spacing m den ≤ spacing n den := spacing_mono den hmn
  obtain hlt | heq := hspacing.lt_or_eq
  · have hm := significand_le m hden
    have hn := le_significand hden (Nat.zero_lt_of_lt hlt)
    omega
  · rw [heq]
    exact Nat.add_le_add_left (divNearest_mono false _ hmn) _

theorem roundMag_zero {den : Nat} (hden : 0 < den) : roundMag 0 den = 0 := by
  simp [roundMag_eq, spacing, divNearest, hden]

/-! ### Rounding a signed number of units -/

/-- The units of the word nearest to `num / den`. -/
def roundUnits (num : Int) (den : Nat) : Int :=
  withSign (decide (num < 0)) (unitsOfBits (roundMag num.natAbs den))

theorem fUnits_roundMag (neg : Bool) (num : Nat) {den : Nat} (hden : 0 < den) :
    fUnits (fPack neg (roundMag num den)) = roundUnits (withSign neg num) den := by
  rw [fUnits_fPack neg (roundMag_le num den)]
  obtain rfl | hpos := Nat.eq_zero_or_pos num
  · cases neg <;> simp [roundUnits, withSign, roundMag_zero hden, unitsOfBits]
  · cases neg <;> simp [roundUnits, withSign, hpos]

theorem roundUnits_mono {den : Nat} (hden : 0 < den) : Monotone (roundUnits · den) := by
  have hmono {i j : Nat} (h : i ≤ j) : unitsOfBits (roundMag i den) ≤ unitsOfBits (roundMag j den) :=
    unitsOfBits_mono (roundMag_mono hden h)
  intro m n hmn
  simp only [roundUnits, withSign, decide_eq_true_eq]
  split_ifs with hm hn hn
  · have := hmono (show n.natAbs ≤ m.natAbs by omega)
    omega
  · omega
  · omega
  · have := hmono (show m.natAbs ≤ n.natAbs by omega)
    omega

/-! ### The three operations are monotone -/

/-- An operation on words with one operand fixed that is monotone on the finite words and carries each infinity to
itself: what holds of adding a finite word, and of multiplying or dividing by a positive finite word. -/
structure MonotoneOp (f : AxisWord → AxisWord) : Prop where
  notNaN : ∀ a, isNaN64 a = false → isNaN64 (f a) = false
  infinite : ∀ a, isNaN64 a = false → isInf64 a = true → fUnits (f a) = fUnits a
  finite : ∀ a b, isNaN64 a = false → isNaN64 b = false → isInf64 a = false → isInf64 b = false →
    fUnits a ≤ fUnits b → fUnits (f a) ≤ fUnits (f b)

/-- Below or above an infinity there is nothing but itself, and no result is past it. -/
theorem MonotoneOp.mono {f : AxisWord → AxisWord} (hf : MonotoneOp f) {a b : AxisWord}
    (ha : isNaN64 a = false) (hb : isNaN64 b = false) (h : fUnits a ≤ fUnits b) :
    fUnits (f a) ≤ fUnits (f b) := by
  cases hia : isInf64 a with
  | true =>
    cases hib : isInf64 b with
    | true => rwa [hf.infinite a ha hia, hf.infinite b hb hib]
    | false =>
      have hlt := (fUnits_bounds_of_finite hb hib).2
      have hle := (fUnits_bounds (hf.notNaN b hb)).1
      rw [hf.infinite a ha hia]
      rw [fUnits_of_isInf64 hia, withSign] at h ⊢
      split_ifs at h ⊢ <;> omega
  | false =>
    cases hib : isInf64 b with
    | true =>
      have hlt := (fUnits_bounds_of_finite ha hia).1
      have hle := (fUnits_bounds (hf.notNaN a ha)).2
      rw [hf.infinite b hb hib]
      rw [fUnits_of_isInf64 hib, withSign] at h ⊢
      split_ifs at h ⊢ <;> omega
    | false => exact hf.finite a b ha hb hia hib h

/-! #### Subtraction from a finite word -/

section
variable {c : AxisWord} (hc : isNaN64 c = false) (hic : isInf64 c = false)
include hc hic

theorem fsub64_of_infinite {b : AxisWord} (hb : isNaN64 b = false) (hib : isInf64 b = true) :
    fsub64 c b = fneg64 b := by
  simp [fsub64, hc, hic, hb, hib]

theorem fsub64_of_finite {b : AxisWord} (hb : isNaN64 b = false) (hib : isInf64 b = false) :
    isNaN64 (fsub64 c b) = false ∧ fUnits (fsub64 c b) = roundUnits (fUnits c - fUnits b) 1 := by
  simp only [fsub64, hc, hic, hb, hib, Bool.or_self, Bool.false_eq_true, if_false]
  split
  next hd =>
    rw [hd, fUnits_fPack _ (Nat.zero_le _)]
    refine ⟨isNaN64_fPack _ (Nat.zero_le _), ?_⟩
    simp [roundUnits, roundMag_zero, withSign, unitsOfBits]
  next => exact ⟨isNaN64_fPack _ (roundMag_le _ _), fUnits_fPack _ (roundMag_le _ _)⟩

/-- Stated of `c - (-a)`, which is monotone in `a`. -/
theorem monotoneOp_fsub64 : MonotoneOp fun a => fsub64 c (fneg64 a) where
  notNaN a ha := by
    have hna : isNaN64 (fneg64 a) = false := (isNaN64_fneg64 a).trans ha
    cases hia : isInf64 (fneg64 a) with
    | true => rw [fsub64_of_infinite hc hic hna hia, fneg64_fneg64]; exact ha
    | false => exact (fsub64_of_finite hc hic hna hia).1
  infinite a ha hia := by
    rw [fsub64_of_infinite hc hic ((isNaN64_fneg64 a).trans ha) ((isInf64_fneg64 a).trans hia), fneg64_fneg64]
  finite a b ha hb hia hib h := by
    rw [(fsub64_of_finite hc hic ((isNaN64_fneg64 a).trans ha) ((isInf64_fneg64 a).trans hia)).2,
      (fsub64_of_finite hc hic ((isNaN64_fneg64 b).trans hb) ((isInf64_fneg64 b).trans hib)).2]
    refine roundUnits_mono Nat.one_pos ?_
    rw [fUnits_fneg64, fUnits_fneg64]
    omega

theorem isNaN64_fsub64 {b : AxisWord} (hb : isNaN64 b = false) : isNaN64 (fsub64 c b) = false := by
  have := (monotoneOp_fsub64 hc hic).notNaN (fneg64 b) ((isNaN64_fneg64 b).trans hb)
  rwa [fneg64_fneg64] at this

theorem fsub64_antitone {a b : AxisWord} (ha : isNaN64 a = false) (hb : isNaN64 b = false)
    (h : fUnits a ≤ fUnits b) : fUnits (fsub64 c b) ≤ fUnits (fsub64 c a) := by
  have hneg : fUnits (fneg64 b) ≤ fUnits (fneg64 a) := by
    rw [fUnits_fneg64, fUnits_fneg64]
    omega
  have := (monotoneOp_fsub64 hc hic).mono ((isNaN64_fneg64 b).trans hb) ((isNaN64_fneg64 a).trans ha) hneg
  rwa [fneg64_fneg64, fneg64_fneg64] at this

end

/-! #### Multiplication and division by a positive finite word -/

/-- A word of positive finite value. -/
structure PosFinite (c : AxisWord) : Prop where
  notNaN : isNaN64 c = false
  finite : isInf64 c = false
  sign : fSign c = false
  magnitude : fMagnitude c ≠ 0

/-- Scaling by `k / den` with one rounding, the sign kept. -/
theorem monotoneOp_of_scaling {f : AxisWord → AxisWord} {k den : Nat} (hden : 0 < den)
    (hinf : ∀ a, isNaN64 a = false → isInf64 a = true → f a = fPack (fSign a) infBits)
    (hfin : ∀ a, isNaN64 a = false → isInf64 a = false →
      f a = fPack (fSign a) (roundMag (fMagnitude a * k) den)) : MonotoneOp f where
  notNaN a ha := by
    cases hia : isInf64 a with
    | true => rw [hinf a ha hia]; exact isNaN64_fPack _ le_rfl
    | false => rw [hfin a ha hia]; exact isNaN64_fPack _ (roundMag_le _ _)
  infinite a ha hia := by
    rw [hinf a ha hia, fUnits_fPack _ le_rfl, fUnits_of_isInf64 hia]
  finite a b ha hb hia hib h := by
    rw [hfin a ha hia, hfin b hb hib, fUnits_roundMag _ _ hden, fUnits_roundMag _ _ hden, withSign_mul,
      withSign_mul]
    exact roundUnits_mono hden (mul_le_mul_of_nonneg_right h (Int.natCast_nonneg k))

section
variable {c : AxisWord} (hc : PosFinite c)
include hc

theorem monotoneOp_fmul64 : MonotoneOp fun a => fmul64 a c :=
  monotoneOp_of_scaling (k := fMagnitude c) unitsPerOne_pos
    (fun a ha hia => by simp [fmul64, ha, hia, hc.notNaN, hc.sign, hc.magnitude])
    (fun a ha hia => by
      simp [-Nat.reducePow, unitsPerOne, fmul64, ha, hia, hc.notNaN, hc.sign, hc.finite])

theorem monotoneOp_fdiv64 : MonotoneOp fun a => fdiv64 a c :=
  monotoneOp_of_scaling (k := unitsPerOne) (Nat.pos_of_ne_zero hc.magnitude)
    (fun a ha hia => by simp [fdiv64, ha, hia, hc.notNaN, hc.sign, hc.finite])
    (fun a ha hia => by
      simp [-Nat.reducePow, unitsPerOne, fdiv64, ha, hia, hc.notNaN, hc.sign, hc.finite, hc.magnitude])

end

/-! ### Rounding to a percentage -/

/-- A number of units rounded to an integer and clamped to 0..100. -/
def percent (away : Bool) (u : Int) : Nat := min 100 (divNearest away u.toNat unitsPerOne)

theorem percent_mono (away : Bool) : Monotone (percent away) := fun _ _ h =>
  min_le_min_left 100 (divNearest_mono away _ (Int.toNat_le_toNat h))

theorem percent_of_nonpos (away : Bool) {u : Int} (h : u ≤ 0) : percent away u = 0 := by
  have hzero := divNearest_mul away 0 unitsPerOne_pos
  rw [Nat.zero_mul] at hzero
  rw [percent, Int.toNat_of_nonpos h, hzero, Nat.min_zero]

theorem natCast_tie (q k : Nat) : (((2 * q + 1) * 2 ^ k : Nat) : Int) = (2 * (q : Int) + 1) * 2 ^ k := by
  push_cast
  rfl

/-- The units of `q + 1/2`, where the tie rule decides. -/
theorem percent_tie (away : Bool) (q : Nat) :
    percent away ((2 * (q : Int) + 1) * 2 ^ 1073) =
      min 100 (if !away && decide (q % 2 = 0) then q else q + 1) := by
  have hunits : unitsPerOne = 2 ^ (1073 + 1) := by decide +kernel
  rw [percent, ← natCast_tie, Int.toNat_natCast, hunits, divNearest_tie]

theorem percent_infinity (away : Bool) : percent away (unitsOfBits infBits) = 100 := by
  cases away <;> decide +kernel

theorem clampExt_natCast (n : Nat) : clampExt (.fin n) 0 100 = min 100 n := by
  simp only [clampExt]
  split_ifs <;> omega

theorem clampExt_of_nonpos {k : Int} (h : k ≤ 0) : clampExt (.fin k) 0 100 = 0 := by
  simp only [clampExt]
  split_ifs <;> omega

/-- The clamp sends the infinities where it sends their units. -/
theorem clampExt_roundInt (away : Bool) (x : AxisWord) :
    clampExt (roundInt away x) 0 100 = percent away (fUnits x) := by
  cases hi : isInf64 x with
  | true =>
    simp only [roundInt, value64_of_infinite hi, fUnits_of_isInf64 hi]
    cases fSign x with
    | true => exact (percent_of_nonpos away (by simp only [withSign_true]; omega)).symm
    | false => exact (percent_infinity away).symm
  | false =>
    simp only [roundInt, value64_of_finite hi]
    split
    next hneg => rw [percent_of_nonpos away hneg.le, clampExt_of_nonpos (by omega)]
    next hpos =>
      have habs : (fUnits x).natAbs = (fUnits x).toNat := by omega
      rw [clampExt_natCast, habs, percent, unitsPerOne]

theorem clampExt_le (n : ExtInt) {lo hi : Nat} (h : lo ≤ hi) : clampExt n lo hi ≤ hi := by
  cases n with
  | negInf => exact h
  | posInf => exact le_rfl
  | fin k =>
    simp only [clampExt]
    split_ifs <;> omega

end Sys2Proof.Proofs.Binary64
end

section
/-! The statements of 41_axis_mapper.md: the three conversion functions (R116 to R122) and the MAP commands (R126
to R128).

On the words that are no NaN, `SYM` and `HALF` are each one percentage of one word that monotone operations
compute; monotonicity, the ties and the rest value of `HALF` are read off these two equations. -/

namespace Sys2Proof.Proofs.Mapper

open Sys2Proof.Machine Sys2Proof.Proofs.Binary64

/-! ### The conversion functions as percentages -/

theorem sym_of_isNaN64 (away : Bool) {v : AxisWord} (h : isNaN64 v = true) : sym away v = 50 := if_pos h

theorem half_of_isNaN64 (away : Bool) {v : AxisWord} (h : isNaN64 v = true) : half away v = 0 := if_pos h

theorem sym_eq_percent (away : Bool) {v : AxisWord} (h : isNaN64 v = false) :
    sym away v = percent away (fUnits (symScaled v)) := by
  rw [← clampExt_roundInt, sym, h]
  rfl

theorem posFinite_fTwo : PosFinite fTwo :=
  ⟨by decide, by decide, by decide, by decide +kernel⟩

theorem posFinite_fHundred : PosFinite fHundred :=
  ⟨by decide, by decide, by decide, by decide +kernel⟩

/-- The four operations of `SYM` in turn (R116): two antitone ones, then two monotone ones. -/
theorem fUnits_symScaled_mono {a b : AxisWord} (ha : isNaN64 a = false) (hb : isNaN64 b = false)
    (h : fUnits a ≤ fUnits b) : fUnits (symScaled a) ≤ fUnits (symScaled b) := by
  have one : isNaN64 fOne = false ∧ isInf64 fOne = false := by decide
  have two := posFinite_fTwo
  have notNaN₁ {v : AxisWord} (hv : isNaN64 v = false) := isNaN64_fsub64 one.1 one.2 hv
  have notNaN₂ {v : AxisWord} (hv : isNaN64 v = false) := isNaN64_fsub64 two.notNaN two.finite (notNaN₁ hv)
  have mul := monotoneOp_fmul64 posFinite_fHundred
  have t₁ := fsub64_antitone one.1 one.2 ha hb h
  have t₂ := fsub64_antitone two.notNaN two.finite (notNaN₁ hb) (notNaN₁ ha) t₁
  have t₃ := mul.mono (notNaN₂ ha) (notNaN₂ hb) t₂
  exact (monotoneOp_fdiv64 two).mono (mul.notNaN _ (notNaN₂ ha)) (mul.notNaN _ (notNaN₂ hb)) t₃

/-- What `HALF` rounds (R120). -/
def halfScaled (v : AxisWord) : AxisWord := fmul64 (fneg64 v) fHundred

theorem fUnits_halfScaled_antitone {a b : AxisWord} (ha : isNaN64 a = false) (hb : isNaN64 b = false)
    (h : fUnits a ≤ fUnits b) : fUnits (halfScaled b) ≤ fUnits (halfScaled a) := by
  refine (monotoneOp_fmul64 posFinite_fHundred).mono ((isNaN64_fneg64 b).trans hb)
    ((isNaN64_fneg64 a).trans ha) ?_
  rw [fUnits_fneg64, fUnits_fneg64]
  omega

theorem fUnits_halfScaled_nonpos {v : AxisWord} (h : isNaN64 v = false) (hv : 0 ≤ fUnits v) :
    fUnits (halfScaled v) ≤ 0 :=
  calc fUnits (halfScaled v)
    _ ≤ fUnits (halfScaled fZero) := fUnits_halfScaled_antitone (by decide) h hv
    _ = 0 := by decide +kernel

/-- The comparison of `HALF` changes no result: where it holds the percentage is 0 anyway. -/
theorem half_eq_percent (away : Bool) {v : AxisWord} (h : isNaN64 v = false) :
    half away v = percent away (fUnits (halfScaled v)) := by
  unfold half
  simp only [h, Bool.false_eq_true, if_false]
  split
  next hle =>
    have hneg : isNaN64 (fneg64 v) = false := (isNaN64_fneg64 v).trans h
    simp only [fle64, Bool.and_eq_true] at hle
    have hu : 0 ≤ fUnits v := by
      have := fUnits_le_of_extLe hneg (by decide) hle.2
      rw [fUnits_fneg64, show fUnits fZero = 0 by decide +kernel] at this
      omega
    exact (percent_of_nonpos away (fUnits_halfScaled_nonpos h hu)).symm
  next => exact clampExt_roundInt away (halfScaled v)

/-! ### Range -/

theorem sym_le (away : Bool) (v : AxisWord) : sym away v ≤ 100 := by
  unfold sym
  split
  · decide
  · exact clampExt_le _ (Nat.zero_le _)

theorem half_le (away : Bool) (v : AxisWord) : half away v ≤ 100 := by
  unfold half
  dsimp only
  split_ifs
  · decide
  · decide
  · exact clampExt_le _ (Nat.zero_le _)

/-- Settles O16: `SYM_INV` is `SYM` of another word. -/
theorem mapperRange : Obligations.MapperRange := fun away v =>
  ⟨sym_le away v, sym_le away (fneg64 v), half_le away v⟩

/-! ### The properties of SYM -/

theorem sym_mono (away : Bool) {a b : AxisWord} (ha : isNaN64 a = false) (hb : isNaN64 b = false)
    (h : extLe (value64 a) (value64 b) = true) : sym away a ≤ sym away b := by
  rw [sym_eq_percent away ha, sym_eq_percent away hb]
  exact percent_mono away (fUnits_symScaled_mono ha hb (fUnits_le_of_extLe ha hb h))

/-- A scaled value halfway between `q` and `q + 1` (R117(d)). -/
theorem sym_tie (away : Bool) {v : AxisWord} {q : Nat} (hv : isNaN64 v = false) (hq : q < 100)
    (h : value64 (symScaled v) = .fin ((2 * (q : Int) + 1) * 2 ^ 1073)) :
    sym away v = if !away && decide (q % 2 = 0) then q else q + 1 := by
  rw [sym_eq_percent away hv, fUnits_of_value64 h, percent_tie away]
  split <;> omega

/-- Settles O17. -/
theorem symProperties : Obligations.SymProperties :=
  ⟨sym_le, fun away _ _ ha hb h => sym_mono away ha hb h, by decide +kernel,
   fun _ q hv hq h => ⟨by simpa using sym_tie false hv hq h, by simpa using sym_tie true hv hq h⟩,
   by decide +kernel, by decide +kernel⟩

/-! ### The properties of HALF -/

theorem half_antitone (away : Bool) {a b : AxisWord} (ha : isNaN64 a = false) (hb : isNaN64 b = false)
    (h : extLe (value64 a) (value64 b) = true) : half away b ≤ half away a := by
  rw [half_eq_percent away ha, half_eq_percent away hb]
  exact percent_mono away (fUnits_halfScaled_antitone ha hb (fUnits_le_of_extLe ha hb h))

theorem half_of_nonneg (away : Bool) {v : AxisWord} (hv : isNaN64 v = false)
    (h : extLe (.fin 0) (value64 v) = true) : half away v = 0 := by
  have hu : 0 ≤ fUnits v := fUnits_le_of_extLe (a := fZero) (by decide) hv h
  rw [half_eq_percent away hv, percent_of_nonpos away (fUnits_halfScaled_nonpos hv hu)]

/-- R121(c): a NaN and a value of 0 or more both give 0. -/
theorem negative_of_half_pos {away : Bool} {v : AxisWord} (h : 0 < half away v) :
    isNaN64 v = false ∧ extLe (.fin 0) (value64 v) = false := by
  have hv : isNaN64 v = false := by
    by_contra hnan
    rw [half_of_isNaN64 away (by simpa using hnan)] at h
    exact h.false
  refine ⟨hv, ?_⟩
  by_contra hle
  rw [half_of_nonneg away hv (by simpa using hle)] at h
  exact h.false

/-- Settles O18. -/
theorem halfProperties : Obligations.HalfProperties :=
  ⟨half_le, fun away _ _ ha hb h => half_antitone away ha hb h, fun _ _ h => negative_of_half_pos h,
   by decide +kernel, by decide +kernel⟩

/-! ### Corner cases -/

/-- Settles O19. -/
theorem mapperCorners : Obligations.MapperCorners :=
  ⟨fun away v h => ⟨sym_of_isNaN64 away h, sym_of_isNaN64 away ((isNaN64_fneg64 v).trans h),
     half_of_isNaN64 away h⟩,
   fun away _ hv h => half_of_nonneg away hv h, by decide +kernel⟩

/-! ### The MAP commands (R126 to R128) -/

/-- Below the capacity a MAP command answers in every held loop state. -/
theorem whenLegal_mapAxis_ok (op : Byte) (f : Bool → AxisWord → Nat) {s : State} {index : Byte}
    (hl : s.loop ≠ 3#2) (hi : index.toNat < s.params.maxAx) :
    whenLegal legalAlways op (mapAxis op f index) s = .next { s with
      axout := BitVec.ofNat 8 (f s.roundTie (s.snapAx.getD index.toNat 0#64)), result := 0x00#8 } := by
  rw [whenLegal_legal op _ hl ((legalAlways_iff _).mpr hl), mapAxis, if_neg hi.not_ge]
  rfl

/-- Settles O15: the decoding and the refused index are the operand rule's, the conversion is
`whenLegal_mapAxis_ok`. -/
theorem mapCommandsWriteAxout : Obligations.MapCommandsWriteAxout := by
  obtain ⟨-, decodes, badIndex⟩ := Encoding.operandRule
  refine ⟨decodes, fun s index hl hi i op hmem => ?_, fun s index hl hi => ?_⟩
  · obtain ⟨hsym, hinv, hhalf⟩ := badIndex s index hl hi
    simp only [List.mem_cons, List.not_mem_nil, or_false, Prod.mk.injEq] at hmem
    obtain ⟨rfl, rfl⟩ | ⟨rfl, rfl⟩ | ⟨rfl, rfl⟩ := hmem
    · exact hsym
    · exact hinv
    · exact hhalf
  · exact ⟨whenLegal_mapAxis_ok opMapSym sym hl hi, whenLegal_mapAxis_ok opMapSymInv symInv hl hi,
      whenLegal_mapAxis_ok opMapHalf half hl hi⟩

end Sys2Proof.Proofs.Mapper
end

section
/-! The statements of 42_snapshot.md: the effect of each event record (R148 to R153), DRAIN (R147), SAMPLE (R146,
R154, R155), the display record (R157) and the DEVICE agent that queues the records (R141).

No record reads or writes the queue (`applyRecord_setEvq`), so a drain of a queue is the effect of its first record
followed by a drain of the others (`drain_of_evq_cons`); the statements about drains rest on this equation, on the
frame of a record, and on the fact that with the device absent a record has no effect. -/

namespace Sys2Proof.Proofs.Snapshot

open Sys2Proof.Machine

/-! ### The live registers -/

theorem writeLiveAxis_of_lt {index : Byte} (v : AxisWord) {s : State} (hp : s.devPresent = true)
    (hi : index.toNat < s.nax.toNat) :
    writeLiveAxis index v s = { s with liveAx := s.liveAx.set index.toNat v } := by
  simp [writeLiveAxis, hp, hi]

theorem writeLiveAxis_eq_self {index : Byte} (v : AxisWord) {s : State}
    (h : s.devPresent = false ∨ s.nax.toNat ≤ index.toNat) : writeLiveAxis index v s = s := by
  obtain hp | hi := h
  · simp [writeLiveAxis, hp]
  · simp [writeLiveAxis, hi.not_gt]

theorem writeLiveButton_of_lt {index : Byte} (b : Bool) {s : State} (hp : s.devPresent = true)
    (hi : index.toNat < s.nbtn.toNat) :
    writeLiveButton index b s = { s with liveBtn := s.liveBtn.set index.toNat b } := by
  simp [writeLiveButton, hp, hi]

theorem writeLiveButton_eq_self {index : Byte} (b : Bool) {s : State}
    (h : s.devPresent = false ∨ s.nbtn.toNat ≤ index.toNat) : writeLiveButton index b s = s := by
  obtain hp | hi := h
  · simp [writeLiveButton, hp]
  · simp [writeLiveButton, hi.not_gt]

/-- Of two writes of one button the later one counts (R150). -/
theorem writeLiveButton_writeLiveButton (index : Byte) (a b : Bool) (s : State) :
    writeLiveButton index b (writeLiveButton index a s) = writeLiveButton index b s := by
  by_cases h : s.devPresent = true ∧ index.toNat < s.nbtn.toNat
  · simp [writeLiveButton, h, List.set_set]
  · have hself : s.devPresent = false ∨ s.nbtn.toNat ≤ index.toNat := by
      simpa [Classical.or_iff_not_imp_left] using h
    rw [writeLiveButton_eq_self a hself]

theorem writeLiveHat_of_lt {index : Byte} {c : BitVec 64} {s : State} (hp : s.devPresent = true)
    (hi : index.toNat < s.nhat.toNat) (hc : c.toNat ≤ 8) :
    writeLiveHat index c s =
      { s with liveHat := s.liveHat.set index.toNat (BitVec.ofNat 4 c.toNat) } := by
  simp [writeLiveHat, hp, hi, hc, BitVec.setWidth_eq_extractLsb']

theorem writeLiveHat_eq_self {index : Byte} {c : BitVec 64} {s : State}
    (h : s.devPresent = false ∨ s.nhat.toNat ≤ index.toNat ∨ 8 < c.toNat) : writeLiveHat index c s = s := by
  obtain hp | hi | hc := h
  · simp [writeLiveHat, hp]
  · simp [writeLiveHat, hi.not_gt]
  · simp [writeLiveHat, hc.not_ge]

theorem loseDevice_of_present {s : State} (h : s.devPresent = true) :
    loseDevice s = { s with devPresent := false, devLost := true } := if_pos h

theorem loseDevice_eq_self {s : State} (h : s.devPresent = false) : loseDevice s = s := by
  simp [loseDevice, h]

/-! ### One record -/

/-- Every rule of APPLY tests `DEV_PRESENT` (R152). -/
theorem applyRecord_of_absent {s : State} (h : s.devPresent = false) (e : EventWord) :
    applyRecord s e = s := by
  simp [applyRecord, writeLiveAxis_eq_self _ (.inl h), writeLiveButton_eq_self _ (.inl h),
    writeLiveHat_eq_self (.inl h), loseDevice_eq_self h]

/-- No record reads or writes the queue. -/
theorem applyRecord_setEvq (s : State) (q : List EventWord) (e : EventWord) :
    applyRecord { s with evq := q } e = { applyRecord s e with evq := q } := by
  simp only [applyRecord, writeLiveAxis, writeLiveButton, writeLiveHat, loseDevice]
  repeat' split
  all_goals rfl

/-- A record that decodes to an instruction has that instruction's effect. -/
theorem exec_of_decodeEvent {e : EventWord} {i : Instr} (h : decodeEvent e = .ok i) (s : State) :
    exec i s = .next (applyRecord s e) := by
  unfold decodeEvent at h
  split at h <;> cases h
  all_goals
    next htype =>
      simp only [applyRecord, (BitVec.toNat_eq_nat.mp htype).2]
      rfl

/-- A record decodes to none exactly when its type is unassigned (30_encoding.md R97). -/
theorem decodeEvent_eq_error_iff {e : EventWord} :
    (∃ err, decodeEvent e = .error err) ↔ etypeField e = 0x00#8 ∨ 0x06 ≤ (etypeField e).toNat := by
  have hzero : etypeField e = 0x00#8 ↔ (etypeField e).toNat = 0 := by simp [BitVec.toNat_eq]
  rw [hzero]
  unfold decodeEvent
  generalize (etypeField e).toNat = etype
  split
  case h_6 => grind
  all_goals simp

/-- A record of an unassigned type has no effect (R153). -/
theorem applyRecord_of_unassigned {e : EventWord}
    (h : etypeField e = 0x00#8 ∨ 0x06 ≤ (etypeField e).toNat) (s : State) : applyRecord s e = s := by
  obtain hzero | hge := h
  · simp [applyRecord, hzero]
  · have hne {n : Byte} (hn : n.toNat < 6) : etypeField e ≠ n := fun heq => by
      rw [heq] at hge
      exact hn.not_ge hge
    simp [applyRecord, hne]

/-! ### DRAIN -/

theorem foldl_applyRecord_setEvq (records q : List EventWord) (s : State) :
    records.foldl applyRecord { s with evq := q } = { records.foldl applyRecord s with evq := q } := by
  induction records generalizing s with
  | nil => rfl
  | cons e records ih => rw [List.foldl_cons, applyRecord_setEvq, ih, List.foldl_cons]

theorem drain_of_evq_nil {s : State} (h : s.evq = []) : drain s = s := by
  rw [drain, h, List.foldl_nil, clearEvents, ← h]

/-- A drain applies the first record, then drains the others. -/
theorem drain_of_evq_cons {s : State} {e : EventWord} {rest : List EventWord} (h : s.evq = e :: rest) :
    drain s = drain (applyRecord { s with evq := rest } e) := by
  calc drain s
    _ = clearEvents (rest.foldl applyRecord (applyRecord s e)) := by rw [drain, h, List.foldl_cons]
    _ = drain { applyRecord s e with evq := rest } :=
      (congrArg clearEvents (foldl_applyRecord_setEvq rest rest (applyRecord s e))).symm
    _ = drain (applyRecord { s with evq := rest } e) := by rw [applyRecord_setEvq s rest e]

/-- Settles O8: the first record's effect, `drain_of_evq_cons`, is that of the instruction it decodes to. -/
theorem drainRunsEachRecordInOrder : Obligations.DrainRunsEachRecordInOrder := by
  refine ⟨fun s => drain_of_evq_nil, fun s e rest i t hq hd hexec => ?_,
    fun s e rest err hq hd => ?_, fun s => rfl⟩
  · rw [exec_of_decodeEvent hd] at hexec
    cases hexec
    exact drain_of_evq_cons hq
  · rw [drain_of_evq_cons hq, applyRecord_of_unassigned (decodeEvent_eq_error_iff.mp ⟨err, hd⟩)]

/-- Settles O21: the frame of the records (`foldl_applyRecord_frame`), then the queue is emptied. -/
theorem drainFrame : Obligations.DrainFrame := fun s =>
  congrArg clearEvents (foldl_applyRecord_frame s.evq s)

@[simp] theorem drain_log (s : State) : (drain s).log = s.log := by
  rw [drainFrame s]

theorem drain_of_absent {s : State} (h : s.devPresent = false) : drain s = { s with evq := [] } := by
  rw [drain, List.foldl_fixed' (applyRecord_of_absent h)]
  rfl

/-! ### The event records -/

/-- Settles O22. -/
theorem axisMotionEffect : Obligations.AxisMotionEffect :=
  ⟨fun _ _ v hp hi => congrArg _ (writeLiveAxis_of_lt v hp hi),
   fun _ _ v h => congrArg _ (writeLiveAxis_eq_self v h)⟩

/-- Settles O23: the last clause is `writeLiveButton_writeLiveButton`. -/
theorem buttonEffects : Obligations.ButtonEffects := by
  refine ⟨fun s index v hp hi => ⟨congrArg _ (writeLiveButton_of_lt true hp hi),
      congrArg _ (writeLiveButton_of_lt false hp hi)⟩,
    fun s index v h => ⟨congrArg _ (writeLiveButton_eq_self true h),
      congrArg _ (writeLiveButton_eq_self false h)⟩,
    fun s t u index v v' hdown hup => ?_⟩
  cases hdown
  cases hup
  exact congrArg Host.Outcome.next (writeLiveButton_writeLiveButton index true false s).symm

/-- Settles O24. -/
theorem hatMotionEffect : Obligations.HatMotionEffect :=
  ⟨fun _ _ _ hp hi hc => congrArg _ (writeLiveHat_of_lt hp hi hc),
   fun _ _ _ h => congrArg _ (writeLiveHat_eq_self h)⟩

/-- Settles O25: with the device absent no record of a drain has an effect, `drain_of_absent`. -/
theorem deviceRemovedEffect : Obligations.DeviceRemovedEffect :=
  ⟨fun _ _ _ h => congrArg _ (loseDevice_of_present h),
   fun _ _ _ h => congrArg _ (loseDevice_eq_self h),
   fun _ h => drain_of_absent h⟩

/-- Settles O26. -/
theorem unassignedEventHasNoEffect : Obligations.UnassignedEventHasNoEffect := by
  refine fun s e h => ⟨applyRecord_of_unassigned h s, fun hq => ?_⟩
  rw [drain_of_evq_cons hq, applyRecord_of_unassigned h]
  exact drain_of_evq_nil rfl

/-! ### SAMPLE -/

theorem sampleOp_of_present (op : Byte) {s : State} (h : (drain s).devPresent = true) :
    sampleOp op s = done .ok (capture (drain s)) := by
  simpa [h] using sampleOp_cases op s

theorem sampleOp_of_lost (op : Byte) {s : State} (hp : (drain s).devPresent = false)
    (hl : (drain s).devLost = true) :
    sampleOp op s = fail .deviceDisconnected op (clearValid (drain s)) := by
  simpa [hp, hl] using sampleOp_cases op s

theorem sampleOp_of_notFound (op : Byte) {s : State} (hp : (drain s).devPresent = false)
    (hl : (drain s).devLost = false) :
    sampleOp op s = fail .deviceNotFound op (clearValid (drain s)) := by
  simpa [hp, hl] using sampleOp_cases op s

theorem exec_sample_of_idle {s : State} (h : s.loop = 0#2) :
    exec .sample s = .next (sampleOp opSample s) :=
  whenLegal_legal opSample (sampleOp opSample) (by simp [h]) ((legalIdle_iff _).mpr h)

theorem exec_sample_of_not_idle {s : State} (h : s.loop = 1#2 ∨ s.loop = 2#2) :
    exec .sample s = .next (fail .badState opSample s) := by
  have hheld : s.loop ≠ 3#2 := by obtain h | h := h <;> simp [h]
  have hillegal : legalIdle s.loop = false := by obtain h | h := h <;> simp [h, legalIdle, loopIdle]
  exact whenLegal_illegal opSample (sampleOp opSample) hheld hillegal

/-- Settles O20: the three results of `sampleOp`, each written out; a drain keeps the log. -/
theorem sampleEffect : Obligations.SampleEffect := by
  refine ⟨by decide, fun s hl => ?_, ?_, ?_, ?_⟩
  · rw [exec_sample_of_not_idle hl, fail_eq]
    rfl
  · rintro s d hl rfl hp
    rw [exec_sample_of_idle hl, sampleOp_of_present opSample hp]
    rfl
  · rintro s d hl rfl hp hlost
    rw [exec_sample_of_idle hl, sampleOp_of_lost opSample hp hlost, fail_eq, ← drain_log s]
    rfl
  · rintro s d hl rfl hp hlost
    rw [exec_sample_of_idle hl, sampleOp_of_notFound opSample hp hlost, fail_eq, ← drain_log s]
    rfl

/-! ### The display record -/

theorem displayRecord_of_valid {s : State} (h : s.snapValid = true) :
    displayRecord s = .fresh (snapshotView s) := if_pos h

theorem displayRecord_of_ever {s : State} (hv : s.snapValid = false) (he : s.snapEver = true) :
    displayRecord s = .stale (snapshotView s) := by
  simp [displayRecord, hv, he]

theorem displayRecord_of_never {s : State} (hv : s.snapValid = false) (he : s.snapEver = false) :
    displayRecord s = .none := by
  simp [displayRecord, hv, he]

/-- Settles O28. -/
theorem displayRecordByStatus : Obligations.DisplayRecordByStatus :=
  ⟨fun s h => by rw [display, displayRecord_of_valid h],
   fun s hv he => by rw [display, displayRecord_of_ever hv he],
   fun s hv he => by rw [display, displayRecord_of_never hv he],
   fun _ => rfl, fun _ => ⟨rfl, rfl⟩, rfl⟩

/-! ### The DEVICE agent -/

theorem agentEnabled_device_iff (s : State) (e : EventWord) :
    agentEnabled (.device e) s = true ↔ s.devAttached = true ∧ s.loop ≠ 2#2 := by
  simp [agentEnabled, loopShutdown]

/-- The slot of a removal is reserved: it is queued with no test of the capacity. -/
theorem deviceStep_of_removal {s : State} {e : EventWord} (ha : s.devAttached = true) (hl : s.loop ≠ 2#2)
    (he : etypeField e = 0x05#8) :
    deviceStep e s = { s with evq := s.evq ++ [e], devAttached := false } := by
  simp [deviceStep, ha, hl, he, loopShutdown]

theorem deviceStep_of_room {s : State} {e : EventWord} (ha : s.devAttached = true) (hl : s.loop ≠ 2#2)
    (he : etypeField e ≠ 0x05#8) (hroom : s.evq.length < s.params.evqCap) :
    deviceStep e s = { s with evq := s.evq ++ [e] } := by
  simp [deviceStep, ha, hl, he, hroom, loopShutdown]

theorem deviceStep_of_full {s : State} {e : EventWord} (he : etypeField e ≠ 0x05#8)
    (hfull : s.params.evqCap ≤ s.evq.length) : deviceStep e s = s := by
  simp [deviceStep, he, hfull.not_gt]

/-- DEVICE takes its step whenever the agenda names it. -/
theorem step_device {s : State} {e : EventWord} {more : List AgentStep} (h : s.agenda = .device e :: more) :
    step s = .next (deviceStep e { s with agenda := more }) :=
  Scope.step_of_agenda_cons h rfl

/-- A queue's records are its removals and the others. -/
theorem length_removals_add_ordinary (q : List EventWord) :
    q.length = (removals q).length + (ordinaryRecords q).length :=
  List.length_eq_length_filter_add _

theorem removals_length_le_one {s : State} (h : Inv s) : (removals s.evq).length ≤ 1 :=
  h.evq_removal.trans (by split <;> decide)

/-- Settles O45: `step_device` with each of the three outcomes, then the bounds the invariant gives. -/
theorem deviceStepQueuesRecords : Obligations.DeviceStepQueuesRecords := by
  refine ⟨agentEnabled_device_iff, fun _ => rfl, fun s more e hq ha hl he => ?_,
    fun s more e hq ha hl he hroom => ?_, fun s more e hq _ _ he hfull => ?_, fun s h => ?_⟩
  · exact (step_device hq).trans (congrArg Host.Outcome.next (deviceStep_of_removal ha hl he))
  · exact (step_device hq).trans (congrArg Host.Outcome.next (deviceStep_of_room ha hl he hroom))
  · exact (step_device hq).trans (congrArg Host.Outcome.next (deviceStep_of_full he hfull))
  · have hone := removals_length_le_one h
    have hordinary := h.evq_ordinary
    have hlength := length_removals_add_ordinary s.evq
    exact ⟨hone, by omega⟩

end Sys2Proof.Proofs.Snapshot
end

section
/-! The statements of 43_frame_packer.md: ENCODE (R170, R172), ENCODE_RESET (R177), and how the two frame rows come
to run (log entry 8).

The frame of a snapshot is one the encodings admit (`frameOfSnapshot_wellFormed`), so the ranges of R172 are those
of 30_encoding.md R101, read off the cells of the buffer through the frame's payload. -/

namespace Sys2Proof.Proofs.Packer

open Sys2Proof.Machine

/-! ### The legality of the two commands -/

theorem whenLegal_legalIdle_of_idle (op : Byte) (act : State → State) {s : State} (h : s.loop = 0#2) :
    whenLegal legalIdle op act s = .next (act s) :=
  whenLegal_legal op act (by simp [h]) ((legalIdle_iff _).mpr h)

theorem whenLegal_legalIdle_of_not_idle (op : Byte) (act : State → State) {s : State}
    (h : s.loop = 1#2 ∨ s.loop = 2#2) :
    whenLegal legalIdle op act s = .next { s with
      result := 0x13#8, log := s.log ++ [⟨0x13#8, op⟩] } := by
  have hheld : s.loop ≠ 3#2 := by obtain h | h := h <;> simp [h]
  have hillegal : legalIdle s.loop = false := by obtain h | h := h <;> simp [h, legalIdle, loopIdle]
  rw [whenLegal_illegal op act hheld hillegal, fail_eq]
  rfl

theorem exec_encode_of_idle {s : State} (h : s.loop = 0#2) : exec .encode s = .next (encodeOp opEncode s) :=
  whenLegal_legalIdle_of_idle opEncode (encodeOp opEncode) h

theorem exec_encodeReset_of_idle {s : State} (h : s.loop = 0#2) :
    exec .encodeReset s = .next (encodeResetOp s) :=
  whenLegal_legalIdle_of_idle opEncodeReset encodeResetOp h

/-! ### The three outcomes of ENCODE -/

theorem encodeOp_of_null (op : Byte) {s : State} (hv : s.snapValid = false) :
    encodeOp op s = done .nullSnapshot (dropFrame s) := by
  simpa [hv] using encodeOp_cases op s

theorem encodeOp_of_unsupported (op : Byte) {s : State} (hv : s.snapValid = true)
    (hfew : s.nax.toNat < 5 ∨ s.nbtn.toNat < 10) :
    encodeOp op s = fail .unsupportedDevice op (dropFrame s) := by
  obtain ⟨hnull, -⟩ | ⟨-, -, he⟩ | ⟨-, hax, hbtn, -⟩ := encodeOp_cases op s
  · cases hv.symm.trans hnull
  · exact he
  · omega

theorem encodeOp_of_supported (op : Byte) {s : State} (hv : s.snapValid = true) (hax : 5 ≤ s.nax.toNat)
    (hbtn : 10 ≤ s.nbtn.toNat) : encodeOp op s = done .ok (assembleMotor (frameOfSnapshot s) s) := by
  obtain ⟨hnull, -⟩ | ⟨-, hfew, -⟩ | ⟨-, -, -, he⟩ := encodeOp_cases op s
  · cases hv.symm.trans hnull
  · omega
  · exact he

/-- Only an assembled frame is reported OK. -/
theorem encodeOp_of_result_ok {op : Byte} {s : State} (h : (encodeOp op s).result = 0x00#8) :
    encodeOp op s = done .ok (assembleMotor (frameOfSnapshot s) s) := by
  obtain ⟨-, he⟩ | ⟨-, -, he⟩ | ⟨-, -, -, he⟩ := encodeOp_cases op s
  · rw [he] at h
    exact absurd h (by decide : codeByte .nullSnapshot ≠ 0x00#8)
  · rw [he, fail_eq] at h
    exact absurd h (by decide : codeByte .unsupportedDevice ≠ 0x00#8)
  · exact he

/-- Settles O9: an ENCODE that assembles a frame, and ENCODE_RESET, make the very writes of the rows. -/
theorem packerRunsFrames : Obligations.PackerRunsFrames :=
  ⟨fun _ hl hv hax hbtn => by rw [exec_encode_of_idle hl, encodeOp_of_supported opEncode hv hax hbtn]; rfl,
   fun _ hl => exec_encodeReset_of_idle hl⟩

/-- Settles O29: the three outcomes of `encodeOp`, each written out. -/
theorem encodeEffect : Obligations.EncodeEffect := by
  refine ⟨by decide, fun s hl => whenLegal_legalIdle_of_not_idle opEncode (encodeOp opEncode) hl,
    fun s hl hv => ?_, fun s hl hv hfew => ?_, fun s ax btn hax hbtn hl hv hnax hnbtn => ?_⟩
  · rw [exec_encode_of_idle hl, encodeOp_of_null opEncode hv]
    rfl
  · rw [exec_encode_of_idle hl, encodeOp_of_unsupported opEncode hv hfew, fail_eq]
    rfl
  · obtain rfl : ax = snapAxis s := funext hax
    obtain rfl : btn = snapButtonByte s := funext hbtn
    rw [exec_encode_of_idle hl, encodeOp_of_supported opEncode hv hnax hnbtn]
    rfl

/-- Settles O31. -/
theorem encodeResetEffect : Obligations.EncodeResetEffect :=
  ⟨by decide, fun _ hl => whenLegal_legalIdle_of_not_idle opEncodeReset encodeResetOp hl,
   fun _ hl => exec_encodeReset_of_idle hl⟩

/-! ### The bytes of a motor frame -/

theorem wellFormed_iff (f : MotorFrame) : f.wellFormed = true ↔
    (∀ b ∈ f.axisBytes, b.toNat ≤ 100) ∧ (∀ b ∈ f.buttonBytes, b.toNat ≤ 1) ∧ f.dpad = 0#8 := by
  simp only [MotorFrame.wellFormed, Bool.and_eq_true, List.all_eq_true, decide_eq_true_eq, and_assoc]

theorem toNat_snapButtonByte_le_one (s : State) (b : Nat) : (snapButtonByte s b).toNat ≤ 1 := by
  unfold snapButtonByte
  split <;> decide

/-- The frame of any snapshot is in the ranges of 30_encoding.md R101: every axis byte is a percentage of the
mapper, every button byte a bit. -/
theorem frameOfSnapshot_wellFormed (s : State) : (frameOfSnapshot s).wellFormed = true := by
  have hsym (i : Nat) := State.toNat_percentByte_le (Mapper.sym_le s.roundTie (snapAxis s i))
  have hinv := State.toNat_percentByte_le (State.symInv_le s.roundTie (snapAxis s 4))
  have hhalf := State.toNat_percentByte_le (Mapper.half_le s.roundTie (snapAxis s 1))
  refine (wellFormed_iff _).mpr ⟨?_, ?_, rfl⟩
  · simp [MotorFrame.axisBytes, frameOfSnapshot, hsym, hinv, hhalf]
  · simp [MotorFrame.buttonBytes, frameOfSnapshot, toNat_snapButtonByte_le_one]

theorem toNat_le_of_mem_payload {f : MotorFrame} (hf : f.wellFormed = true) {b : Byte} (hb : b ∈ f.payload) :
    b.toNat ≤ 100 := by
  obtain ⟨haxes, hbuttons, hdpad⟩ := (wellFormed_iff f).mp hf
  simp only [MotorFrame.payload, List.mem_append, List.mem_singleton] at hb
  obtain (hb | hb) | rfl := hb
  · exact haxes b hb
  · exact (hbuttons b hb).trans (by decide)
  · simp [hdpad]

/-- Past the head, the cells of the buffer are the payload. -/
theorem motorCells_succ (f : MotorFrame) (i : Fin 16) : (motorCells f)[i.succ] = f.payload[i] := rfl

theorem motorCells_mem_payload (f : MotorFrame) {j : Fin 17} (h : 1 ≤ j.val) :
    (motorCells f)[j] ∈ f.payload := by
  obtain ⟨i, rfl⟩ := Fin.exists_succ_eq.mpr (Fin.pos_iff_ne_zero.mp h)
  rw [motorCells_succ]
  exact List.getElem_mem _

/-- The buttons stand at offsets 6 to 15. -/
theorem motorCells_button (f : MotorFrame) (i : Fin 10) : (motorCells f)[i.val + 6] = f.buttonBytes[i] := by
  fin_cases i <;> rfl

theorem motorCells_mem_buttonBytes (f : MotorFrame) {j : Fin 17} (hlo : 6 ≤ j.val) (hhi : j.val ≤ 15) :
    (motorCells f)[j] ∈ f.buttonBytes := by
  have hcell := motorCells_button f ⟨j.val - 6, by omega⟩
  simp only [Nat.sub_add_cancel hlo] at hcell
  exact hcell ▸ List.getElem_mem _

theorem ne_frameHead_of_le {b : Byte} (h : b.toNat ≤ 100) : b ≠ 250#8 ∧ b ≠ 251#8 := by
  constructor <;> bv_omega

/-- R172 (a) to (c) for a frame the encodings admit, in the 17 cells it fills. -/
theorem motorCells_ranges {f : MotorFrame} (hf : f.wellFormed = true) :
    (motorCells f)[0] = 250#8 ∧ (motorCells f)[16] = 0#8 ∧
    (∀ j : Fin 17, 1 ≤ j.val → j.val ≤ 5 → (motorCells f)[j].toNat ≤ 100) ∧
    (∀ j : Fin 17, 6 ≤ j.val → j.val ≤ 15 → (motorCells f)[j].toNat ≤ 1) ∧
    (∀ j : Fin 17, 1 ≤ j.val → (motorCells f)[j] ≠ 250#8 ∧ (motorCells f)[j] ≠ 251#8) := by
  have hpayload (j : Fin 17) (h : 1 ≤ j.val) : (motorCells f)[j].toNat ≤ 100 :=
    toNat_le_of_mem_payload hf (motorCells_mem_payload f h)
  obtain ⟨-, hbuttons, hdpad⟩ := (wellFormed_iff f).mp hf
  exact ⟨rfl, hdpad, fun j hlo _ => hpayload j hlo,
    fun j hlo hhi => hbuttons _ (motorCells_mem_buttonBytes f hlo hhi),
    fun j h => ne_frameHead_of_le (hpayload j h)⟩

/-! ### ENCODE as a function of the snapshot -/

theorem frameOfSnapshot_congr {s s' : State} (hax : s.snapAx = s'.snapAx) (hbtn : s.snapBtn = s'.snapBtn)
    (hround : s.roundTie = s'.roundTie) : frameOfSnapshot s = frameOfSnapshot s' := by
  simp only [frameOfSnapshot, snapAxis, snapButtonByte, hax, hbtn, hround]

/-- What R172 (d) compares: the result, the length, and, where a frame is reported, its cells. -/
theorem encodeOp_congr (op : Byte) {s s' : State} (hax : s.snapAx = s'.snapAx)
    (hbtn : s.snapBtn = s'.snapBtn) (hvalid : s.snapValid = s'.snapValid) (hnax : s.nax = s'.nax)
    (hnbtn : s.nbtn = s'.nbtn) (hround : s.roundTie = s'.roundTie) :
    (encodeOp op s).result = (encodeOp op s').result ∧ (encodeOp op s).flen = (encodeOp op s').flen ∧
      ((encodeOp op s).result = 0x00#8 → (encodeOp op s).fbuf = (encodeOp op s').fbuf) := by
  obtain ⟨hv, he⟩ | ⟨hv, hfew, he⟩ | ⟨hv, hfive, hten, he⟩ := encodeOp_cases op s
  · rw [he, encodeOp_of_null op (hvalid ▸ hv)]
    exact ⟨rfl, rfl, fun h => absurd h (by decide : codeByte .nullSnapshot ≠ 0x00#8)⟩
  · rw [he, encodeOp_of_unsupported op (hvalid ▸ hv) (hnax ▸ hnbtn ▸ hfew), fail_eq, fail_eq]
    exact ⟨rfl, rfl, fun h => absurd h (by decide : codeByte .unsupportedDevice ≠ 0x00#8)⟩
  · rw [he, encodeOp_of_supported op (hvalid ▸ hv) (hnax ▸ hfive) (hnbtn ▸ hten),
      frameOfSnapshot_congr hax hbtn hround]
    exact ⟨rfl, rfl, fun _ => rfl⟩

/-- Settles O30: the OK outcome is the frame of the snapshot, which is one the encodings admit, and each of the
three outcomes depends on the registers named in R172 (d) only. -/
theorem encodeProperties : Obligations.EncodeProperties := by
  refine ⟨fun s t hl ht hok => ?_, fun s s' t t' hl hl' hax hbtn hvalid hnax hnbtn hround ht ht' => ?_⟩
  · cases (exec_encode_of_idle hl).symm.trans ht
    rw [encodeOp_of_result_ok hok]
    exact ⟨rfl, motorCells_ranges (frameOfSnapshot_wellFormed s)⟩
  · cases (exec_encode_of_idle hl).symm.trans ht
    cases (exec_encode_of_idle hl').symm.trans ht'
    exact encodeOp_congr opEncode hax hbtn hvalid hnax hnbtn hround

end Sys2Proof.Proofs.Packer
end

section
/-! The statements of 44_serial_transmitter.md: OPEN (R186), CLOSE (R190), SEND (R193), the line format (R200, R203),
POLL_INBOUND (R204), the LINE agent (R206), and that inbound bytes affect nothing else (R207).

Each operation has one equation per outcome; the effects of the commands are these equations written out, and R207
compares the same outcome in two states that differ in `RXQ` only. -/

namespace Sys2Proof.Proofs.Transmitter

open Sys2Proof.Machine

/-! ### The outcomes of OPEN -/

theorem openOp_of_open (op : Byte) {s : State} (hp : s.port = true) : openOp op s = fail .badState op s := by
  simpa [hp] using openOp_cases op s

theorem openOp_of_ok (op : Byte) {s : State} (hp : s.port = false) (ha : openAnswer s = .ok) :
    openOp op s = done .ok (portUp (drawOpen s)) := by
  simpa [hp, ha] using openOp_cases op s

theorem openOp_of_portUnavailable (op : Byte) {s : State} (hp : s.port = false)
    (ha : openAnswer s = .portUnavailable) :
    openOp op s = openFailed .portUnavailable op (drawOpen s) := by
  simpa [hp, ha] using openOp_cases op s

theorem openOp_of_permissionDenied (op : Byte) {s : State} (hp : s.port = false)
    (ha : openAnswer s = .permissionDenied) :
    openOp op s = openFailed .permissionDenied op (drawOpen s) := by
  simpa [hp, ha] using openOp_cases op s

/-! ### The outcomes of SEND -/

theorem sendOp_of_closed (op : Byte) {s : State} (hp : s.port = false) :
    sendOp op s = fail .notOpen op (setTxResult .notOpen (dropFrame s)) := by
  simpa [hp] using sendOp_cases op s

theorem sendOp_of_noFrame (op : Byte) {s : State} (hp : s.port = true) (hf : s.flen = 0#5) :
    sendOp op s = done .noFrame (setTxResult .noFrame s) := by
  simpa [hp, hf] using sendOp_cases op s

theorem sendOp_of_whole (op : Byte) {s : State} (hp : s.port = true) (hf : s.flen ≠ 0#5)
    (hk : txAnswer s s.flen.toNat = s.flen.toNat) :
    sendOp op s = done .ok (setTxResult .ok
      (dropFrame (emitWire (bufferBytes s s.flen.toNat) (drawTx s)))) := by
  simpa [hp, hf, hk] using sendOp_cases op s

theorem sendOp_of_timeout (op : Byte) {s : State} (hp : s.port = true) (hf : s.flen ≠ 0#5)
    (hk : txAnswer s s.flen.toNat < s.flen.toNat) :
    sendOp op s = fail .writeTimeout op (setTxResult .writeTimeout
      (dropFrame (emitWire (bufferBytes s (txAnswer s s.flen.toNat)) (drawTx s)))) := by
  simpa [hp, hf, hk, hk.ne] using sendOp_cases op s

/-- What a SEND writes when bytes reach the wire: the frame is consumed, the code recorded. -/
theorem sent_eq (c : ResultCode) (bytes : List Byte) (s : State) :
    setTxResult c (dropFrame (emitWire bytes (drawTx s))) =
      { drawTx s with wire := s.wire ++ bytes, flen := 0#5, txResult := codeByte c } := rfl

/-! ### The outcomes of POLL_INBOUND -/

theorem pollInboundOp_of_open (op : Byte) {s : State} (hp : s.port = true) :
    pollInboundOp op s = done .ok (clearInbound (emitInbound s.rxq s)) := by
  simpa [hp] using pollInboundOp_cases op s

theorem pollInboundOp_of_closed (op : Byte) {s : State} (hp : s.port = false) :
    pollInboundOp op s = fail .notOpen op (emitInbound [] s) := by
  simpa [hp] using pollInboundOp_cases op s

/-! ### The commands -/

theorem exec_send_of_idle {s : State} (h : s.loop = 0#2) : exec .send s = .next (sendOp opSend s) :=
  Packer.whenLegal_legalIdle_of_idle opSend (sendOp opSend) h

theorem exec_openPort_of_idle {s : State} (h : s.loop = 0#2) : exec .openPort s = .next (openOp opOpen s) :=
  Packer.whenLegal_legalIdle_of_idle opOpen (openOp opOpen) h

theorem exec_closePort_of_idle {s : State} (h : s.loop = 0#2) : exec .closePort s = .next (closeOp s) :=
  Packer.whenLegal_legalIdle_of_idle opClose closeOp h

theorem exec_pollInbound_of_held {s : State} (h : s.loop ≠ 3#2) :
    exec .pollInbound s = .next (pollInboundOp opPollInbound s) :=
  whenLegal_legal opPollInbound (pollInboundOp opPollInbound) h ((legalAlways_iff _).mpr h)

/-- Settles O33: the outcomes of `sendOp`, each written out. -/
theorem sendEffect : Obligations.SendEffect := by
  refine ⟨by decide, fun s hl => Packer.whenLegal_legalIdle_of_not_idle opSend (sendOp opSend) hl,
    fun s n => Nat.le_of_lt_succ (txAnswer_bound s n), fun s hl hp => ?_, fun s hl hp hf => ?_,
    fun s hl hp hf hk => ?_, fun s hl hp hf hk => ?_⟩
  · rw [exec_send_of_idle hl, sendOp_of_closed opSend hp, fail_eq]
    rfl
  · rw [exec_send_of_idle hl, sendOp_of_noFrame opSend hp hf]
    rfl
  · rw [exec_send_of_idle hl, sendOp_of_whole opSend hp hf hk, sent_eq]
    rfl
  · rw [exec_send_of_idle hl, sendOp_of_timeout opSend hp hf hk, sent_eq, fail_eq]
    rfl

/-- Settles O34: the outcomes of `openOp`, each written out. -/
theorem openEffect : Obligations.OpenEffect := by
  refine ⟨by decide, fun s hl => Packer.whenLegal_legalIdle_of_not_idle opOpen (openOp opOpen) hl,
    fun s hl hp => ?_, fun s hl hp ha => ?_, fun s hl hp ha => ?_, fun s hl hp ha => ?_⟩
  · rw [exec_openPort_of_idle hl, openOp_of_open opOpen hp, fail_eq]
    rfl
  · rw [exec_openPort_of_idle hl, openOp_of_ok opOpen hp ha]
    rfl
  · rw [exec_openPort_of_idle hl, openOp_of_portUnavailable opOpen hp ha, openFailed, fail_eq]
    rfl
  · rw [exec_openPort_of_idle hl, openOp_of_permissionDenied opOpen hp ha, openFailed, fail_eq]
    rfl

theorem closeOp_closeOp (s : State) : closeOp (closeOp s) = closeOp s := rfl

/-- Settles O35: the last clause is `closeOp_closeOp`, for CLOSE stays in IDLE. -/
theorem closeEffect : Obligations.CloseEffect := by
  refine ⟨by decide, fun s hl => Packer.whenLegal_legalIdle_of_not_idle opClose closeOp hl,
    fun s hl => exec_closePort_of_idle hl, fun s t hl ht => ?_⟩
  cases (exec_closePort_of_idle hl).symm.trans ht
  have hidle : (closeOp s).loop = 0#2 := hl
  rw [exec_closePort_of_idle hidle, closeOp_closeOp]

/-- Settles O36. -/
theorem pollInboundEffect : Obligations.PollInboundEffect := by
  refine ⟨by decide, fun s hl hp => ?_, fun s hl hp => ?_⟩
  · rw [exec_pollInbound_of_held hl, pollInboundOp_of_open opPollInbound hp]
    rfl
  · rw [exec_pollInbound_of_held hl, pollInboundOp_of_closed opPollInbound hp, fail_eq]
    rfl

/-! ### The LINE agent -/

theorem lineStep_of_room {s : State} (b : Byte) (hp : s.port = true) (hroom : s.rxq.length < s.params.rxCap) :
    lineStep b s = { s with rxq := s.rxq ++ [b] } := by
  simp [lineStep, hp, hroom]

theorem lineStep_of_full {s : State} (b : Byte) (hfull : s.params.rxCap ≤ s.rxq.length) :
    lineStep b s = s := by
  simp [lineStep, hfull.not_gt]

/-- LINE takes its step whenever the agenda names it. -/
theorem step_line {s : State} {b : Byte} {more : List AgentStep} (h : s.agenda = .line b :: more) :
    step s = .next (lineStep b { s with agenda := more }) :=
  Scope.step_of_agenda_cons h rfl

/-- Settles O46: `step_line` with each of the two outcomes. -/
theorem lineStepQueuesBytes : Obligations.LineStepQueuesBytes :=
  ⟨fun _ _ => Iff.rfl,
   fun _ _ b hq hp hroom => (step_line hq).trans (congrArg Host.Outcome.next (lineStep_of_room b hp hroom)),
   fun _ _ b hq _ hfull => (step_line hq).trans (congrArg Host.Outcome.next (lineStep_of_full b hfull))⟩

/-! ### The line format -/

@[simp] theorem length_lineLevels (b : Byte) : (lineLevels b).length = 10 := rfl

/-- A character starts with a space. -/
theorem lineLevels_eq_cons (b : Byte) : lineLevels b = false :: (lineLevels b).tail := rfl

theorem getElem?_lineLevels_succ (b : Byte) {i : Nat} (h : i < 8) :
    (lineLevels b)[i + 1]? = some (b.getLsbD i) := by
  simp [lineLevels, List.getElem?_append, h]

theorem lineLevels_injective : Function.Injective lineLevels := fun a b h =>
  BitVec.eq_of_getLsbD_eq fun i hi => by
    rw [← Option.some_inj, ← getElem?_lineLevels_succ a hi, h, getElem?_lineLevels_succ b hi]

/-- The first space ends the rest before it, so it determines how long the rest was. -/
theorem rest_append_space_inj {r r' : Nat} {x y : List Bool}
    (h : List.replicate r true ++ false :: x = List.replicate r' true ++ false :: y) : r = r' ∧ x = y := by
  induction r generalizing r' with
  | zero =>
    cases r' with
    | zero => simpa using h
    | succ r' => simp [List.replicate_succ] at h
  | succ r ih =>
    cases r' with
    | zero => simp [List.replicate_succ] at h
    | succ r' => simpa using ih (by simpa [List.replicate_succ] using h)

/-- A line at rest carries no character: every character has a space. -/
theorem lineSignal_cons_ne_rest (r m n : Nat) (b : Byte) (more : List (Nat × Byte)) :
    lineSignal ((r, b) :: more) m ≠ List.replicate n true := by
  intro h
  have hspace : false ∈ lineSignal ((r, b) :: more) m := by
    rw [lineSignal_cons, lineLevels_eq_cons]
    simp
  rw [h] at hspace
  exact Bool.false_ne_true (List.eq_of_mem_replicate hspace)

/-- A signal determines its first rest, its first character and the signal after it. -/
theorem lineSignal_cons_inj {r r' m n : Nat} {b b' : Byte} {more more' : List (Nat × Byte)}
    (h : lineSignal ((r, b) :: more) m = lineSignal ((r', b') :: more') n) :
    r = r' ∧ b = b' ∧ lineSignal more m = lineSignal more' n := by
  rw [lineSignal_cons, lineSignal_cons, List.append_assoc, List.append_assoc] at h
  obtain ⟨hrest, htail⟩ := rest_append_space_inj h
  have hlevels : lineLevels b ++ lineSignal more m = lineLevels b' ++ lineSignal more' n :=
    congrArg (false :: ·) htail
  obtain ⟨hchar, hmore⟩ := List.append_inj hlevels (by simp)
  exact ⟨hrest, lineLevels_injective hchar, hmore⟩

/-- A signal determines its characters and rests, character by character. -/
theorem lineSignal_inj {xs ys : List (Nat × Byte)} {m n : Nat} (h : lineSignal xs m = lineSignal ys n) :
    xs = ys ∧ m = n := by
  induction xs generalizing ys with
  | nil =>
    cases ys with
    | nil => simpa [lineSignal_nil] using h
    | cons y ys => exact absurd h.symm (lineSignal_cons_ne_rest y.1 n m y.2 ys)
  | cons x xs ih =>
    cases ys with
    | nil => exact absurd h (lineSignal_cons_ne_rest x.1 m n x.2 xs)
    | cons y ys =>
      obtain ⟨hrest, hchar, hmore⟩ := lineSignal_cons_inj h
      obtain ⟨rfl, rfl⟩ := ih hmore
      exact ⟨congrArg (· :: xs) (Prod.ext hrest hchar), rfl⟩

theorem lineWaveform_injective : Function.Injective lineWaveform := fun _ _ h =>
  List.map_injective_iff.mpr (Prod.mk_right_injective 0) (lineSignal_inj h).1

/-- Settles O37. -/
theorem lineFormat : Obligations.LineFormat :=
  ⟨fun b => ⟨length_lineLevels b, rfl, rfl, fun _ => getElem?_lineLevels_succ b⟩,
   lineSignal_nil, fun r m b more => lineSignal_cons r m b more, fun _ _ _ _ => lineSignal_inj,
   fun _ _ h => lineWaveform_injective h⟩

/-! ### Inbound bytes affect nothing but POLL_INBOUND (R207) -/

/-- `t` is `s` but for the inbound queue. -/
def SameButInbound (s t : State) : Prop := ∃ q : List Byte, t = { s with rxq := q }

/-- What `act` does to two states that differ in the inbound queue only differs in that queue only. -/
def IgnoresInbound (act : State → State) : Prop :=
  ∀ (s : State) (q : List Byte), SameButInbound (act s) (act { s with rxq := q })

theorem IgnoresInbound.comp {f g : State → State} (hg : IgnoresInbound g) (hf : IgnoresInbound f) :
    IgnoresInbound (fun s => g (f s)) := by
  intro s q
  obtain ⟨q', hf'⟩ := hf s q
  simp only [hf']
  exact hg (f s) q'

theorem done_ignoresInbound (c : ResultCode) : IgnoresInbound (done c) := fun _ q => ⟨q, rfl⟩

theorem fail_ignoresInbound (c : ResultCode) (op : Byte) : IgnoresInbound (fail c op) := fun s q =>
  ⟨q, by rw [fail_eq, fail_eq]⟩

theorem SameButInbound.next {s t : State} (h : SameButInbound s t) :
    ∃ q : List Byte, (.next t : Host.Outcome State Fault Refusal) = .next { s with rxq := q } := by
  obtain ⟨q, rfl⟩ := h
  exact ⟨q, rfl⟩

/-- The legality check reads `LOOP` only. -/
theorem whenLegal_ignoresInbound {legal : BitVec 2 → Bool} {op : Byte} {act : State → State} {s t : State}
    (q : List Byte) (h : whenLegal legal op act s = .next t) (hact : IgnoresInbound act) :
    ∃ q' : List Byte, whenLegal legal op act { s with rxq := q } = .next { t with rxq := q' } := by
  obtain ⟨hheld, ⟨hlegal, rfl⟩ | ⟨hillegal, rfl⟩⟩ := whenLegal_cases h
  · rw [whenLegal_legal op act (s := { s with rxq := q }) hheld hlegal]
    exact (hact s q).next
  · rw [whenLegal_illegal op act (s := { s with rxq := q }) hheld hillegal]
    exact (fail_ignoresInbound .badState op s q).next

/-! #### The snapshot unit -/

theorem writeLiveAxis_ignoresInbound (index : Byte) (v : AxisWord) :
    IgnoresInbound (writeLiveAxis index v) := fun s q => ⟨q, by
  unfold writeLiveAxis
  split <;> rfl⟩

theorem writeLiveButton_ignoresInbound (index : Byte) (b : Bool) :
    IgnoresInbound (writeLiveButton index b) := fun s q => ⟨q, by
  unfold writeLiveButton
  split <;> rfl⟩

theorem writeLiveHat_ignoresInbound (index : Byte) (c : BitVec 64) :
    IgnoresInbound (writeLiveHat index c) := fun s q => ⟨q, by
  unfold writeLiveHat
  split <;> rfl⟩

theorem loseDevice_ignoresInbound : IgnoresInbound loseDevice := fun s q => ⟨q, by
  unfold loseDevice
  split <;> rfl⟩

theorem applyRecord_ignoresInbound (e : EventWord) : IgnoresInbound (applyRecord · e) := by
  intro s q
  unfold applyRecord
  split_ifs
  · exact writeLiveAxis_ignoresInbound _ _ s q
  · exact writeLiveButton_ignoresInbound _ _ s q
  · exact writeLiveButton_ignoresInbound _ _ s q
  · exact writeLiveHat_ignoresInbound _ _ s q
  · exact loseDevice_ignoresInbound s q
  · exact ⟨q, rfl⟩

theorem foldl_applyRecord_ignoresInbound (records : List EventWord) :
    IgnoresInbound (records.foldl applyRecord ·) := by
  induction records with
  | nil => exact fun _ q => ⟨q, rfl⟩
  | cons e records ih => exact ih.comp (applyRecord_ignoresInbound e)

theorem clearEvents_ignoresInbound : IgnoresInbound clearEvents := fun _ q => ⟨q, rfl⟩

theorem drain_ignoresInbound : IgnoresInbound drain := fun s q =>
  clearEvents_ignoresInbound.comp (foldl_applyRecord_ignoresInbound s.evq) s q

theorem sampleOp_ignoresInbound (op : Byte) : IgnoresInbound (sampleOp op) := by
  intro s q
  obtain ⟨q', hd⟩ := drain_ignoresInbound s q
  obtain ⟨hp, h⟩ | ⟨hp, hl, h⟩ | ⟨hp, hl, h⟩ := sampleOp_cases op s
  · rw [h, Snapshot.sampleOp_of_present op (by rw [hd]; exact hp), hd]
    exact ⟨q', rfl⟩
  · rw [h, Snapshot.sampleOp_of_lost op (by rw [hd]; exact hp) (by rw [hd]; exact hl), hd]
    exact fail_ignoresInbound _ op (clearValid (drain s)) q'
  · rw [h, Snapshot.sampleOp_of_notFound op (by rw [hd]; exact hp) (by rw [hd]; exact hl), hd]
    exact fail_ignoresInbound _ op (clearValid (drain s)) q'

/-- The display record is that of the snapshot registers. -/
theorem display_ignoresInbound : IgnoresInbound display := fun _ q => ⟨q, rfl⟩

/-! #### The axis mapper and the frame packer -/

theorem mapAxis_ignoresInbound (op : Byte) (f : Bool → AxisWord → Nat) (index : Byte) :
    IgnoresInbound (mapAxis op f index) := by
  intro s q
  unfold mapAxis
  split
  · exact fail_ignoresInbound .badIndex op s q
  · exact ⟨q, rfl⟩

theorem encodeOp_ignoresInbound (op : Byte) : IgnoresInbound (encodeOp op) := by
  intro s q
  obtain ⟨hv, h⟩ | ⟨hv, hfew, h⟩ | ⟨hv, hax, hbtn, h⟩ := encodeOp_cases op s
  · rw [h, Packer.encodeOp_of_null op (s := { s with rxq := q }) hv]
    exact ⟨q, rfl⟩
  · rw [h, Packer.encodeOp_of_unsupported op (s := { s with rxq := q }) hv hfew]
    exact fail_ignoresInbound _ op (dropFrame s) q
  · rw [h, Packer.encodeOp_of_supported op (s := { s with rxq := q }) hv hax hbtn]
    exact ⟨q, rfl⟩

/-- A motor frame is laid into the buffer and reported. -/
theorem assembled_ignoresInbound (frame : MotorFrame) :
    IgnoresInbound (fun s => done .ok (assembleMotor frame s)) := fun _ q => ⟨q, rfl⟩

theorem encodeResetOp_ignoresInbound : IgnoresInbound encodeResetOp := fun _ q => ⟨q, rfl⟩

/-! #### The transmitter -/

theorem sendOp_ignoresInbound (op : Byte) : IgnoresInbound (sendOp op) := by
  intro s q
  obtain ⟨hp, h⟩ | ⟨hp, hf, h⟩ | ⟨hp, hf, hk, h⟩ | ⟨hp, hf, hk, h⟩ := sendOp_cases op s
  · rw [h, sendOp_of_closed op (s := { s with rxq := q }) hp]
    exact fail_ignoresInbound _ op (setTxResult .notOpen (dropFrame s)) q
  · rw [h, sendOp_of_noFrame op (s := { s with rxq := q }) hp hf]
    exact ⟨q, rfl⟩
  · rw [h, sendOp_of_whole op (s := { s with rxq := q }) hp hf hk]
    exact ⟨q, rfl⟩
  · rw [h, sendOp_of_timeout op (s := { s with rxq := q }) hp hf hk]
    exact fail_ignoresInbound _ op (setTxResult .writeTimeout
      (dropFrame (emitWire (bufferBytes s (txAnswer s s.flen.toNat)) (drawTx s)))) q

theorem openFailed_ignoresInbound (c : ResultCode) (op : Byte) : IgnoresInbound (openFailed c op) :=
  (fail_ignoresInbound c op).comp fun _ _ => ⟨[], rfl⟩

theorem openOp_ignoresInbound (op : Byte) : IgnoresInbound (openOp op) := by
  intro s q
  obtain ⟨hp, h⟩ | ⟨hp, ha, h⟩ | ⟨hp, ha, h⟩ | ⟨hp, ha, h⟩ := openOp_cases op s
  · rw [h, openOp_of_open op (s := { s with rxq := q }) hp]
    exact fail_ignoresInbound .badState op s q
  · rw [h, openOp_of_ok op (s := { s with rxq := q }) hp ha]
    exact ⟨[], rfl⟩
  · rw [h, openOp_of_portUnavailable op (s := { s with rxq := q }) hp ha]
    exact openFailed_ignoresInbound _ op (drawOpen s) q
  · rw [h, openOp_of_permissionDenied op (s := { s with rxq := q }) hp ha]
    exact openFailed_ignoresInbound _ op (drawOpen s) q

theorem closeOp_ignoresInbound : IgnoresInbound closeOp := fun _ _ => ⟨[], rfl⟩

/-! #### The sequencer -/

theorem startOp_of_open {s : State} (hp : s.port = true) : startOp s = done .ok (enterTicking s) := by
  simpa [hp] using startOp_cases s

theorem startOp_of_openFailed {s : State} (hp : s.port = false)
    (hl : (openOp opStart s).loop = loopShutdown) : startOp s = openOp opStart s := by
  simpa [hp, hl] using startOp_cases s

theorem startOp_of_opened {s : State} (hp : s.port = false) (hl : (openOp opStart s).loop ≠ loopShutdown) :
    startOp s = done .ok (enterTicking (openOp opStart s)) := by
  simpa [hp, hl] using startOp_cases s

theorem startOp_ignoresInbound : IgnoresInbound startOp := by
  intro s q
  obtain ⟨q', ho⟩ := openOp_ignoresInbound opStart s q
  obtain ⟨hp, h⟩ | ⟨hp, hl, h⟩ | ⟨hp, hl, h⟩ := startOp_cases s
  · rw [h, startOp_of_open (s := { s with rxq := q }) hp]
    exact ⟨q, rfl⟩
  · rw [h, startOp_of_openFailed (s := { s with rxq := q }) hp (by rw [ho]; exact hl)]
    exact ⟨q', ho⟩
  · rw [h, startOp_of_opened (s := { s with rxq := q }) hp (by rw [ho]; exact hl), ho]
    exact ⟨q', rfl⟩

theorem quitOp_ignoresInbound : IgnoresInbound quitOp := by
  intro s q
  unfold quitOp
  split
  · exact ⟨q, rfl⟩
  · exact ⟨[], rfl⟩

theorem resetReqOp_ignoresInbound : IgnoresInbound resetReqOp :=
  (sendOp_ignoresInbound opResetReq).comp encodeResetOp_ignoresInbound

theorem tickStages_ignoresInbound : IgnoresInbound tickStages := by
  intro s q
  obtain ⟨q', he⟩ := encodeOp_ignoresInbound opTick s q
  simp only [tickStages, he]
  split
  · split
    · exact sendOp_ignoresInbound opTick (encodeOp opTick s) q'
    · exact ⟨q', rfl⟩
  · exact ⟨q, rfl⟩

theorem takeTick_ignoresInbound : IgnoresInbound takeTick := fun _ q => ⟨q, rfl⟩

theorem tickOp_ignoresInbound : IgnoresInbound tickOp :=
  display_ignoresInbound.comp (tickStages_ignoresInbound.comp
    ((sampleOp_ignoresInbound opTick).comp takeTick_ignoresInbound))

/-- Settles O38, instruction by instruction: the operation each one runs ignores the inbound queue. -/
theorem inboundNeverAffectsOutbound : Obligations.InboundNeverAffectsOutbound := by
  intro i s t q hi h
  cases i with
  | pollInbound => exact absurd rfl hi
  | nop => exact whenLegal_ignoresInbound q h (done_ignoresInbound .ok)
  | start => exact whenLegal_ignoresInbound q h startOp_ignoresInbound
  | quit => exact whenLegal_ignoresInbound q h quitOp_ignoresInbound
  | resetReq => exact whenLegal_ignoresInbound q h resetReqOp_ignoresInbound
  | mapSym index => exact whenLegal_ignoresInbound q h (mapAxis_ignoresInbound opMapSym sym index)
  | mapSymInv index => exact whenLegal_ignoresInbound q h (mapAxis_ignoresInbound opMapSymInv symInv index)
  | mapHalf index => exact whenLegal_ignoresInbound q h (mapAxis_ignoresInbound opMapHalf half index)
  | sample => exact whenLegal_ignoresInbound q h (sampleOp_ignoresInbound opSample)
  | encode => exact whenLegal_ignoresInbound q h (encodeOp_ignoresInbound opEncode)
  | encodeReset => exact whenLegal_ignoresInbound q h encodeResetOp_ignoresInbound
  | send => exact whenLegal_ignoresInbound q h (sendOp_ignoresInbound opSend)
  | openPort => exact whenLegal_ignoresInbound q h (openOp_ignoresInbound opOpen)
  | closePort => exact whenLegal_ignoresInbound q h closeOp_ignoresInbound
  | tick => cases h; exact (tickOp_ignoresInbound s q).next
  | axisMotion index value => cases h; exact (writeLiveAxis_ignoresInbound index value s q).next
  | buttonDown index value => cases h; exact (writeLiveButton_ignoresInbound index true s q).next
  | buttonUp index value => cases h; exact (writeLiveButton_ignoresInbound index false s q).next
  | hatMotion index value => cases h; exact (writeLiveHat_ignoresInbound index value s q).next
  | deviceRemoved index value => cases h; exact (loseDevice_ignoresInbound s q).next
  | motorFrame frame => cases h; exact (assembled_ignoresInbound frame s q).next
  | resetFrame => cases h; exact (encodeResetOp_ignoresInbound s q).next

end Sys2Proof.Proofs.Transmitter
end

section
/-! The statements of 45_sequencer.md: the arbitration (R216), EXEC (R218), the control commands (R222 to R229), the
tick (R231, R233), the TIMER and HOST agents (R237, R215), fairness (R240) and the transitions of `LOOP` (R243).

A tick is one of five equations of `tickOp` over the drained state. For R243 one inversion lemma says what each host
command does to `LOOP` and to the agenda (`exec_hostCommand_control`). R240 follows from the two fairness clauses:
were SEQ silent from some point on, the backlog would stay nonzero after the next TIMER step, and SEQ enabled. -/

namespace Sys2Proof.Proofs.Sequencer

open Sys2Proof.Machine Sys2Proof.Laws

/-! ### The arbitration -/

theorem agentEnabled_seq_iff (s : State) :
    agentEnabled .seq s = true ↔ s.hcq ≠ [] ∨ (s.loop = 1#2 ∧ s.tickPend ≠ 0#16) := by
  simp [agentEnabled, tickDue_iff]

theorem seqStep_of_hcq_cons {s : State} {w : CommandWord} {rest : List CommandWord} (hq : s.hcq = w :: rest) :
    seqStep s = execWord w { s with hcq := rest } := by
  simp only [seqStep, hq]

theorem seqStep_of_tickDue {s : State} (hq : s.hcq = []) (hl : s.loop = 1#2) (ht : s.tickPend ≠ 0#16) :
    seqStep s = exec .tick s := by
  simp only [seqStep, hq, (tickDue_iff s).mpr ⟨hl, ht⟩, if_true]

/-- Settles O6. -/
theorem arbitrationHostBeforeTick : Obligations.ArbitrationHostBeforeTick :=
  ⟨agentEnabled_seq_iff, fun _ _ _ hq => seqStep_of_hcq_cons hq,
   fun _ hq hl ht => seqStep_of_tickDue hq hl ht⟩

/-- Settles O7. -/
theorem stepRunsDecodedCommand : Obligations.StepRunsDecodedCommand := fun s w rest i ha hq hw =>
  calc step s
    _ = seqStep s := Scope.step_of_agenda_nil ha
    _ = execWord w { s with hcq := rest } := seqStep_of_hcq_cons hq
    _ = exec i { s with hcq := rest } := State.execWord_of_decodes _ hw

/-! ### EXEC -/

/-- A command out of its loop states is BadState, logged with its opcode, and has no other effect. -/
theorem whenLegal_badState {legal : BitVec 2 → Bool} (op : Byte) (act : State → State) {s : State}
    (hheld : s.loop ≠ 3#2) (hillegal : legal s.loop = false) :
    whenLegal legal op act s = .next { s with
      result := 0x13#8, log := s.log ++ [⟨0x13#8, op⟩] } := by
  rw [whenLegal_illegal op act hheld hillegal, fail_eq]
  rfl

theorem whenLegal_legalAlways_of_held (op : Byte) (act : State → State) {s : State} (hheld : s.loop ≠ 3#2) :
    whenLegal legalAlways op act s = .next (act s) :=
  whenLegal_legal op act hheld ((legalAlways_iff _).mpr hheld)

theorem execWord_of_undecodable {w : CommandWord} (s : State) (hw : ∀ i, decodeHostWord w ≠ .ok i) :
    execWord w s = .next { s with result := 0x14#8, log := s.log ++ [⟨0x14#8, opField w⟩] } := by
  obtain ⟨i, hi, -⟩ | ⟨-, hexec⟩ := execWord_cases w s
  · exact absurd hi (hw i)
  · rw [hexec, fail_eq]
    rfl

/-- The opcodes of the host's commands (30_encoding.md R87, R88). -/
abbrev ListedOpcode (op : Nat) : Prop := op ≤ 0x03 ∨ (0x08 ≤ op ∧ op ≤ 0x0B) ∨ (0x10 ≤ op ∧ op ≤ 0x15)

/-- The loop states a command is legal in, by its opcode (30_encoding.md R87). -/
abbrev LegalLoop (op : Nat) (l : BitVec 2) : Prop :=
  l = 0#2 ∧ op ≠ 0x03 ∨ l = 1#2 ∧ op ≠ 0x01 ∧ op < 0x10 ∨ l = 2#2 ∧ op ≠ 0x01 ∧ op ≠ 0x03 ∧ op < 0x10

theorem listedOpcode_of_decodes {w : CommandWord} {i : Instr} (h : decodeHostWord w = .ok i) :
    ListedOpcode (opField w).toNat := by
  obtain ⟨htick, hcommand⟩ := Encoding.decodeHostWord_eq_ok_iff.mp h
  have hne : (opField w).toNat ≠ 0x04 := fun h4 => htick (BitVec.eq_of_toNat_eq h4)
  obtain hindexed | ⟨hplain, -⟩ := Encoding.decodeCommand_ok_cases hcommand
  · have := Encoding.indexedCommand_opcode hindexed
    omega
  · have := Encoding.plainCommand_opcode hplain
    omega

theorem exists_indexedCommand {op : Byte} (arg : Byte) (h : 0x09 ≤ op.toNat ∧ op.toNat ≤ 0x0B) :
    ∃ i, indexedCommand op arg = some i := by
  unfold indexedCommand
  split
  case h_4 => grind
  all_goals exact ⟨_, rfl⟩

theorem exists_plainCommand {op : Byte} (hop : ListedOpcode op.toNat)
    (hmap : ¬(0x09 ≤ op.toNat ∧ op.toNat ≤ 0x0B)) : ∃ i, plainCommand op = some i := by
  unfold plainCommand
  split
  case h_13 => grind
  all_goals exact ⟨_, rfl⟩

/-- The encoding of an instruction decodes to it, `decodeOfEncodeIsIdentity`. -/
theorem decodeCommand_of_encodes {w : CommandWord} {i : Instr} (h : Encoding.Encodes i (.command w)) :
    decodeCommand w = .ok i := by
  obtain ⟨hencode, hwf⟩ := h
  have hdecode := Encoding.decodeOfEncodeIsIdentity i hwf
  rwa [hencode] at hdecode

/-- A listed opcode with an `ARG` its command takes is a command of the host (R89). -/
theorem exists_decodeHostWord {w : CommandWord} (hop : ListedOpcode (opField w).toNat)
    (harg : (0x09 ≤ (opField w).toNat ∧ (opField w).toNat ≤ 0x0B) ∨ argField w = 0#8) :
    ∃ i, decodeHostWord w = .ok i := by
  have htick : opField w ≠ 0x04#8 := fun h => by
    have h4 : (opField w).toNat = 4 := congrArg BitVec.toNat h
    omega
  have hcommand : ∃ i, Encoding.Encodes i (.command (commandOf (opField w) (argField w))) := by
    by_cases hmap : 0x09 ≤ (opField w).toNat ∧ (opField w).toNat ≤ 0x0B
    · obtain ⟨i, hi⟩ := exists_indexedCommand (argField w) hmap
      exact ⟨i, Encoding.indexedCommand_encodes hi⟩
    · obtain ⟨i, hi⟩ := exists_plainCommand hop hmap
      exact ⟨i, harg.resolve_left hmap ▸ Encoding.plainCommand_encodes hi⟩
  obtain ⟨i, hi⟩ := hcommand
  rw [Encoding.commandOf_fields] at hi
  exact ⟨i, Encoding.decodeHostWord_eq_ok_iff.mpr ⟨htick, decodeCommand_of_encodes hi⟩⟩

/-- The instruction is one operation under the legality check of the opcode's row in R87. -/
def ChecksLegality (i : Instr) (op : Byte) : Prop :=
  ∃ legal act, (∀ s, exec i s = whenLegal legal op act s) ∧
    ∀ l, legal l = true ↔ LegalLoop op.toNat l

theorem indexedCommand_checksLegality {op arg : Byte} {i : Instr} (h : indexedCommand op arg = some i) :
    ChecksLegality i op := by
  unfold indexedCommand at h
  split at h <;> cases h
  all_goals
    next hop =>
      obtain ⟨-, rfl⟩ := BitVec.toNat_eq_nat.mp hop
      exact ⟨_, _, fun _ => rfl, by decide⟩

theorem plainCommand_checksLegality {op : Byte} {i : Instr} (h : plainCommand op = some i)
    (htick : op ≠ 0x04#8) : ChecksLegality i op := by
  unfold plainCommand at h
  split at h
  case h_5 hop => exact absurd (BitVec.eq_of_toNat_eq hop) htick
  all_goals cases h
  all_goals
    next hop =>
      obtain ⟨-, rfl⟩ := BitVec.toNat_eq_nat.mp hop
      exact ⟨_, _, fun _ => rfl, by decide⟩

theorem checksLegality_of_decodes {w : CommandWord} {i : Instr} (h : decodeHostWord w = .ok i) :
    ChecksLegality i (opField w) := by
  obtain ⟨htick, hcommand⟩ := Encoding.decodeHostWord_eq_ok_iff.mp h
  obtain hindexed | ⟨hplain, -⟩ := Encoding.decodeCommand_ok_cases hcommand
  · exact indexedCommand_checksLegality hindexed
  · exact plainCommand_checksLegality hplain htick

/-- Settles O39: the two refusals of the decoder, the refusal of the legality check, and the command a word
encodes. -/
theorem execDecodesThenChecksState : Obligations.ExecDecodesThenChecksState := by
  intro s w hheld
  refine ⟨fun hop => ?_, fun _ hmap harg => ?_, fun hop harg hillegal => ?_, fun hop harg _ => ?_⟩
  · exact execWord_of_undecodable s fun i hi => hop (listedOpcode_of_decodes hi)
  · exact execWord_of_undecodable s (Encoding.decodeHostWord_ne_ok_of_nonzeroArg harg (by omega))
  · obtain ⟨i, hi⟩ := exists_decodeHostWord hop harg
    obtain ⟨legal, act, hexec, hlegal⟩ := checksLegality_of_decodes hi
    rw [State.execWord_of_decodes s hi, hexec]
    exact whenLegal_badState (opField w) act hheld
      (Bool.eq_false_iff.mpr fun h => hillegal ((hlegal s.loop).mp h))
  · obtain ⟨i, hi⟩ := exists_decodeHostWord hop harg
    have hcommand := (Encoding.decodeHostWord_eq_ok_iff.mp hi).2
    exact ⟨i, (Encoding.decodeCommand_encodes hcommand).1, State.execWord_of_decodes s hi⟩

/-! ### NOP, START and QUIT -/

/-- Settles O10. -/
theorem nopEffect : Obligations.NopEffect :=
  ⟨by decide, fun _ hheld => whenLegal_legalAlways_of_held opNop (done .ok) hheld⟩

theorem exec_start_of_idle {s : State} (h : s.loop = 0#2) : exec .start s = .next (startOp s) :=
  Packer.whenLegal_legalIdle_of_idle opStart startOp h

theorem startOp_of_ok {s : State} (hl : s.loop = 0#2) (hp : s.port = false) (ha : openAnswer s = .ok) :
    startOp s = done .ok (enterTicking (portUp (drawOpen s))) := by
  have hopen := Transmitter.openOp_of_ok opStart hp ha
  have hup : (openOp opStart s).loop ≠ loopShutdown := by
    rw [hopen]
    exact hl.symm ▸ (by decide : loopIdle ≠ loopShutdown)
  rw [Transmitter.startOp_of_opened hp hup, hopen]
  rfl

/-- A refused open ends START with the path of the open, logged with START's opcode. -/
theorem startOp_of_refused {s : State} {c : ResultCode} (hp : s.port = false)
    (hopen : openOp opStart s = openFailed c opStart (drawOpen s)) :
    startOp s = openFailed c opStart (drawOpen s) := by
  have hdown : (openOp opStart s).loop = loopShutdown := by rw [hopen, State.openFailed_loop]
  rw [Transmitter.startOp_of_openFailed hp hdown, hopen]

/-- Settles O11: the outcomes of `startOp`, each written out. -/
theorem startEffect : Obligations.StartEffect := by
  refine ⟨by decide, fun s hl => Packer.whenLegal_legalIdle_of_not_idle opStart startOp hl,
    fun s hl hp => ?_, fun s hl hp ha => ?_, fun s hl hp ha => ?_, fun s hl hp ha => ?_⟩
  · rw [exec_start_of_idle hl, Transmitter.startOp_of_open hp]
    rfl
  · rw [exec_start_of_idle hl, startOp_of_ok hl hp ha]
    rfl
  · rw [exec_start_of_idle hl, startOp_of_refused hp (Transmitter.openOp_of_portUnavailable opStart hp ha),
      openFailed, fail_eq]
    rfl
  · rw [exec_start_of_idle hl, startOp_of_refused hp (Transmitter.openOp_of_permissionDenied opStart hp ha),
      openFailed, fail_eq]
    rfl

theorem exec_quit_of_held {s : State} (h : s.loop ≠ 3#2) : exec .quit s = .next (quitOp s) :=
  whenLegal_legalAlways_of_held opQuit quitOp h

theorem quitOp_of_shutdown {s : State} (h : s.loop = 2#2) : quitOp s = done .ok s := if_pos h

theorem quitOp_of_not_shutdown {s : State} (h : s.loop ≠ 2#2) : quitOp s = done .ok (enterShutdown s) := if_neg h

/-- Settles O12. -/
theorem quitEffect : Obligations.QuitEffect := by
  refine ⟨by decide, fun s hl => ?_, fun s hl => ?_⟩
  · rw [exec_quit_of_held (by simp [hl]), quitOp_of_shutdown hl]
    rfl
  · obtain ⟨hheld, hup⟩ : s.loop ≠ 3#2 ∧ s.loop ≠ 2#2 := by obtain hl | hl := hl <;> simp [hl]
    rw [exec_quit_of_held hheld, quitOp_of_not_shutdown hup]
    rfl

/-! ### Sending the frame just assembled -/

theorem bufferBytes_zero (s : State) : bufferBytes s 0 = [] := rfl

theorem bufferBytes_assembleReset (s : State) : bufferBytes (assembleReset s) 1 = [251#8] := by
  simp [bufferBytes, assembleReset, List.take_one, List.head?_eq_getElem?]

theorem bufferBytes_assembleMotor (f : MotorFrame) (s : State) (n : Nat) :
    bufferBytes (assembleMotor f s) n = (250#8 :: f.payload).take n := rfl

theorem sendOp_assembleMotor_of_whole (op : Byte) (f : MotorFrame) {s : State} (hp : s.port = true)
    (hk : txAnswer s 17 = 17) :
    sendOp op (done .ok (assembleMotor f s)) = { drawTx s with
      fbuf := motorCells f, flen := 0#5, wire := s.wire ++ 250#8 :: f.payload, txResult := 0x00#8,
      result := 0x00#8 } := by
  rw [Transmitter.sendOp_of_whole (s := done .ok (assembleMotor f s)) op hp (by simp [assembleMotor]) hk,
    Transmitter.sent_eq]
  rfl

theorem sendOp_assembleMotor_of_timeout (op : Byte) (f : MotorFrame) {s : State} (hp : s.port = true)
    (hk : txAnswer s 17 < 17) :
    sendOp op (done .ok (assembleMotor f s)) = { drawTx s with
      fbuf := motorCells f, flen := 0#5, wire := s.wire ++ (250#8 :: f.payload).take (txAnswer s 17),
      txResult := 0x05#8, result := 0x05#8, log := s.log ++ [⟨0x05#8, op⟩] } := by
  rw [Transmitter.sendOp_of_timeout (s := done .ok (assembleMotor f s)) op hp (by simp [assembleMotor]) hk,
    Transmitter.sent_eq, fail_eq]
  rfl

theorem encodeResetOp_flen_ne_zero (s : State) : (encodeResetOp s).flen ≠ 0#5 := by
  simp [encodeResetOp, assembleReset]

theorem resetReqOp_of_taken {s : State} (hp : s.port = true) (hk : txAnswer s 1 = 1) :
    resetReqOp s = { drawTx s with
      fbuf := s.fbuf.set 0 251#8, flen := 0#5, wire := s.wire ++ [251#8], txResult := 0x00#8,
      result := 0x00#8 } := by
  rw [resetReqOp,
    Transmitter.sendOp_of_whole (s := encodeResetOp s) opResetReq hp (encodeResetOp_flen_ne_zero s) hk,
    Transmitter.sent_eq, ← bufferBytes_assembleReset s]
  rfl

theorem resetReqOp_of_timeout {s : State} (hp : s.port = true) (hk : txAnswer s 1 = 0) :
    resetReqOp s = { drawTx s with
      fbuf := s.fbuf.set 0 251#8, flen := 0#5, txResult := 0x05#8, result := 0x05#8,
      log := s.log ++ [⟨0x05#8, 0x03#8⟩] } := by
  have hnone : txAnswer (encodeResetOp s) (encodeResetOp s).flen.toNat = 0 := hk
  have hshort : txAnswer (encodeResetOp s) (encodeResetOp s).flen.toNat < (encodeResetOp s).flen.toNat :=
    hnone.trans_lt Nat.one_pos
  rw [resetReqOp, Transmitter.sendOp_of_timeout (s := encodeResetOp s) opResetReq hp
    (encodeResetOp_flen_ne_zero s) hshort, hnone, Transmitter.sent_eq, bufferBytes_zero, List.append_nil,
    fail_eq]
  rfl

theorem exec_resetReq_of_ticking {s : State} (h : s.loop = 1#2) : exec .resetReq s = .next (resetReqOp s) :=
  whenLegal_legal opResetReq resetReqOp (by simp [h]) ((legalTicking_iff _).mpr h)

/-- Settles O13. -/
theorem resetReqEffect : Obligations.ResetReqEffect := by
  refine ⟨by decide, fun s hl => ?_, fun s hl hp hk => ?_, fun s hl hp hk => ?_⟩
  · obtain ⟨hheld, hillegal⟩ : s.loop ≠ 3#2 ∧ legalTicking s.loop = false := by
      obtain hl | hl := hl <;> simp [hl, legalTicking, loopTicking]
    exact whenLegal_badState opResetReq resetReqOp hheld hillegal
  · rw [exec_resetReq_of_ticking hl, resetReqOp_of_taken hp hk]
  · rw [exec_resetReq_of_ticking hl, resetReqOp_of_timeout hp hk]

/-! ### TICK -/

theorem exec_tick (s : State) : exec .tick s = .next (tickOp s) := rfl

theorem tickStages_of_null {s : State} (hv : s.snapValid = false) : tickStages s = s := by
  simp [tickStages, hv]

theorem tickStages_of_unsupported {s : State} (hv : s.snapValid = true)
    (hfew : s.nax.toNat < 5 ∨ s.nbtn.toNat < 10) :
    tickStages s = fail .unsupportedDevice opTick (dropFrame s) := by
  have hempty : (encodeOp opTick s).flen ≠ 17#5 := by
    rw [Packer.encodeOp_of_unsupported opTick hv hfew, fail_eq]
    simp [dropFrame]
  simp only [tickStages, hv, if_true, if_neg hempty]
  exact Packer.encodeOp_of_unsupported opTick hv hfew

theorem tickStages_of_supported {s : State} (hv : s.snapValid = true) (hax : 5 ≤ s.nax.toNat)
    (hbtn : 10 ≤ s.nbtn.toNat) :
    tickStages s = sendOp opTick (done .ok (assembleMotor (frameOfSnapshot s) s)) := by
  have he := Packer.encodeOp_of_supported opTick hv hax hbtn
  have hframe : (encodeOp opTick s).flen = 17#5 := by rw [he]; rfl
  simp only [tickStages, hv, if_true]
  rw [if_pos hframe, he]

/-! #### What the drain of a tick keeps (R231; 42_snapshot.md R147) -/

section
variable (s : State)

theorem drain_takeTick_nax : (drain (takeTick s)).nax = s.nax := by rw [Snapshot.drainFrame]; rfl
theorem drain_takeTick_nbtn : (drain (takeTick s)).nbtn = s.nbtn := by rw [Snapshot.drainFrame]; rfl
theorem drain_takeTick_port : (drain (takeTick s)).port = s.port := by rw [Snapshot.drainFrame]; rfl
theorem drain_takeTick_wire : (drain (takeTick s)).wire = s.wire := by rw [Snapshot.drainFrame]; rfl
theorem drain_takeTick_disp : (drain (takeTick s)).disp = s.disp := by rw [Snapshot.drainFrame]; rfl
theorem drain_takeTick_log : (drain (takeTick s)).log = s.log := by rw [Snapshot.drainFrame]; rfl

theorem drain_takeTick_displayRecord :
    displayRecord (clearValid (drain (takeTick s))) = if s.snapEver then .stale (snapshotView s) else .none := by
  rw [Snapshot.drainFrame]; rfl

theorem drain_takeTick_txAnswer (n : Nat) : txAnswer (drain (takeTick s)) n = txAnswer s n := by
  rw [Snapshot.drainFrame]; rfl

end

/-! #### The display at the end of a tick, by the outcome of its stages -/

theorem display_tickStages_of_null (c : ResultCode) (op : Byte) (d : State) :
    display (tickStages (fail c op (clearValid d))) = { d with
      snapValid := false, result := codeByte c
      log := d.log ++ if isLogged c then [⟨codeByte c, op⟩] else []
      disp := d.disp ++ [displayRecord (clearValid d)] } := by
  rw [fail_eq, tickStages_of_null rfl]; rfl

theorem display_tickStages_of_unsupported {d : State} (hfew : d.nax.toNat < 5 ∨ d.nbtn.toNat < 10) :
    display (tickStages (done .ok (capture d))) = { capture d with
      flen := 0#5, result := 0x06#8, log := d.log ++ [⟨0x06#8, 0x04#8⟩]
      disp := d.disp ++ [.fresh (snapshotView (capture d))] } := by
  rw [tickStages_of_unsupported (s := done .ok (capture d)) rfl hfew, fail_eq]; rfl

theorem display_tickStages_of_whole {d : State} (hax : 5 ≤ d.nax.toNat) (hbtn : 10 ≤ d.nbtn.toNat)
    (hp : d.port = true) (hk : txAnswer d 17 = 17) :
    display (tickStages (done .ok (capture d))) = { drawTx (capture d) with
      fbuf := motorCells (frameOfSnapshot (capture d)), flen := 0#5
      wire := d.wire ++ 250#8 :: (frameOfSnapshot (capture d)).payload
      txResult := 0x00#8, result := 0x00#8
      disp := d.disp ++ [.fresh (snapshotView (capture d))] } := by
  rw [tickStages_of_supported (s := done .ok (capture d)) rfl hax hbtn,
    sendOp_assembleMotor_of_whole (s := done .ok (capture d)) opTick _ hp hk]
  rfl

theorem display_tickStages_of_timeout {d : State} (hax : 5 ≤ d.nax.toNat) (hbtn : 10 ≤ d.nbtn.toNat)
    (hp : d.port = true) (hk : txAnswer d 17 < 17) :
    display (tickStages (done .ok (capture d))) = { drawTx (capture d) with
      fbuf := motorCells (frameOfSnapshot (capture d)), flen := 0#5
      wire := d.wire ++ (250#8 :: (frameOfSnapshot (capture d)).payload).take (txAnswer d 17)
      txResult := 0x05#8, result := 0x05#8, log := d.log ++ [⟨0x05#8, 0x04#8⟩]
      disp := d.disp ++ [.fresh (snapshotView (capture d))] } := by
  rw [tickStages_of_supported (s := done .ok (capture d)) rfl hax hbtn,
    sendOp_assembleMotor_of_timeout (s := done .ok (capture d)) opTick _ hp hk]
  rfl

/-- A word with TICK's opcode is refused whatever its `ARG` (30_encoding.md R88). -/
theorem decodeHostWord_tick (arg : Byte) : decodeHostWord (commandOf 0x04#8 arg) = .error .tickFromHost :=
  if_pos (opField_commandOf 0x04#8 arg)

/-- Settles O14: SAMPLE's result on the drained state, then the outcome of the stages and the display. -/
theorem tickEffect : Obligations.TickEffect := by
  refine ⟨decodeHostWord_tick, fun s ha hq hl ht => ?_, fun s d ht hd hp hlost => ?_,
    fun s d ht hd hp hlost => ?_, fun s d ht hd hp hfew => ?_, fun s d ht hd hp hax hbtn hport hk => ?_,
    fun s d ht hd hp hax hbtn hport hk => ?_⟩
  · rw [Scope.step_of_agenda_nil ha, seqStep_of_tickDue hq hl ht]
  all_goals obtain rfl : d = drain (takeTick s) := hd
  · rw [exec_tick, tickOp, Snapshot.sampleOp_of_lost opTick hp hlost, display_tickStages_of_null,
      drain_takeTick_log, drain_takeTick_disp, drain_takeTick_displayRecord]
    rfl
  · rw [exec_tick, tickOp, Snapshot.sampleOp_of_notFound opTick hp hlost, display_tickStages_of_null,
      drain_takeTick_log, drain_takeTick_disp, drain_takeTick_displayRecord]
    rfl
  · rw [exec_tick, tickOp, Snapshot.sampleOp_of_present opTick hp,
      display_tickStages_of_unsupported (by rwa [drain_takeTick_nax, drain_takeTick_nbtn]),
      drain_takeTick_log, drain_takeTick_disp]
  · rw [exec_tick, tickOp, Snapshot.sampleOp_of_present opTick hp,
      display_tickStages_of_whole (by rwa [drain_takeTick_nax]) (by rwa [drain_takeTick_nbtn])
        (by rwa [drain_takeTick_port]) (by rwa [drain_takeTick_txAnswer]),
      drain_takeTick_wire, drain_takeTick_disp]
  · rw [exec_tick, tickOp, Snapshot.sampleOp_of_present opTick hp,
      display_tickStages_of_timeout (by rwa [drain_takeTick_nax]) (by rwa [drain_takeTick_nbtn])
        (by rwa [drain_takeTick_port]) (by rwa [drain_takeTick_txAnswer]),
      drain_takeTick_wire, drain_takeTick_disp, drain_takeTick_log, drain_takeTick_txAnswer]

/-! ### Who writes `LOOP` and the agenda -/

/-- The loop state, and the agent steps that come next (log entry 3). -/
def controlOf (s : State) : BitVec 2 × List AgentStep := (s.loop, s.agenda)

/-- The operation leaves the loop state and the agenda as they are. -/
def KeepsControl (act : State → State) : Prop := ∀ s, controlOf (act s) = controlOf s

theorem KeepsControl.comp {f g : State → State} (hg : KeepsControl g) (hf : KeepsControl f) :
    KeepsControl (fun s => g (f s)) := fun s => (hg (f s)).trans (hf s)

theorem done_keepsControl (c : ResultCode) : KeepsControl (done c) := fun _ => rfl

theorem fail_keepsControl (c : ResultCode) (op : Byte) : KeepsControl (fail c op) := fun s => by
  rw [fail_eq]; rfl

theorem mapAxis_keepsControl (op : Byte) (f : Bool → AxisWord → Nat) (index : Byte) :
    KeepsControl (mapAxis op f index) := fun s => by
  obtain ⟨-, h⟩ | ⟨-, h⟩ := mapAxis_cases op f index s
  · rw [h]; exact fail_keepsControl .badIndex op s
  · rw [h]; rfl

theorem drain_keepsControl : KeepsControl drain := fun s => by
  rw [Snapshot.drainFrame s]; rfl

theorem sampleOp_keepsControl (op : Byte) : KeepsControl (sampleOp op) := fun s => by
  obtain ⟨-, h⟩ | ⟨-, -, h⟩ | ⟨-, -, h⟩ := sampleOp_cases op s
  · rw [h]; exact drain_keepsControl s
  · rw [h]; exact (fail_keepsControl _ op _).trans (drain_keepsControl s)
  · rw [h]; exact (fail_keepsControl _ op _).trans (drain_keepsControl s)

theorem encodeOp_keepsControl (op : Byte) : KeepsControl (encodeOp op) := fun s => by
  obtain ⟨-, h⟩ | ⟨-, -, h⟩ | ⟨-, -, -, h⟩ := encodeOp_cases op s
  · rw [h]; rfl
  · rw [h]; exact fail_keepsControl _ op (dropFrame s)
  · rw [h]; rfl

theorem encodeResetOp_keepsControl : KeepsControl encodeResetOp := fun _ => rfl

theorem sendOp_keepsControl (op : Byte) : KeepsControl (sendOp op) := fun s => by
  obtain ⟨-, h⟩ | ⟨-, -, h⟩ | ⟨-, -, -, h⟩ | ⟨-, -, -, h⟩ := sendOp_cases op s
  · rw [h, fail_keepsControl]; rfl
  · rw [h]; rfl
  · rw [h]; simp [controlOf]
  · rw [h, fail_keepsControl]; simp [controlOf]

theorem closeOp_keepsControl : KeepsControl closeOp := fun _ => rfl

theorem pollInboundOp_keepsControl (op : Byte) : KeepsControl (pollInboundOp op) := fun s => by
  obtain ⟨-, h⟩ | ⟨-, h⟩ := pollInboundOp_cases op s
  · rw [h]; exact fail_keepsControl .notOpen op (emitInbound [] s)
  · rw [h]; rfl

theorem resetReqOp_keepsControl : KeepsControl resetReqOp :=
  (sendOp_keepsControl opResetReq).comp encodeResetOp_keepsControl

theorem tickStages_keepsControl : KeepsControl tickStages := fun s => by
  have he : controlOf (encodeOp opTick s) = controlOf s := encodeOp_keepsControl opTick s
  simp only [tickStages]
  split
  · split
    · exact (sendOp_keepsControl opTick _).trans he
    · exact he
  · rfl

theorem takeTick_keepsControl : KeepsControl takeTick := fun _ => rfl

theorem display_keepsControl : KeepsControl display := fun _ => rfl

theorem tickOp_keepsControl : KeepsControl tickOp :=
  display_keepsControl.comp (tickStages_keepsControl.comp
    ((sampleOp_keepsControl opTick).comp takeTick_keepsControl))

/-- Settles O43. -/
theorem tickNeverHaltsTheLoop : Obligations.TickNeverHaltsTheLoop := fun s =>
  ⟨tickOp s, exec_tick s, congrArg Prod.fst (tickOp_keepsControl s)⟩

/-! ### The transitions of `LOOP` (R243) -/

/-- What the instruction does when it changes the loop state: START starts, a refused open of START or OPEN is fatal,
QUIT shuts down. -/
def LoopChange (i : Instr) (s t : State) : Prop :=
  (s.loop = 0#2 ∧ t.loop = 1#2 ∧ i = .start ∧ t.port = true) ∨
  (s.loop = 0#2 ∧ t.loop = 2#2 ∧ t.fatalCode ≠ 0x00#8 ∧ (i = .start ∨ i = .openPort)) ∨
  ((s.loop = 0#2 ∨ s.loop = 1#2) ∧ t.loop = 2#2 ∧ i = .quit)

/-- The agenda is kept, and the loop state is kept or changed as the instruction may. -/
def ControlStep (i : Instr) (s t : State) : Prop :=
  t.agenda = s.agenda ∧ (t.loop = s.loop ∨ LoopChange i s t)

theorem ControlStep.of_controlOf {i : Instr} {s t : State} (h : controlOf t = controlOf s) : ControlStep i s t :=
  ⟨congrArg Prod.snd h, .inl (congrArg Prod.fst h)⟩

/-- BadState changes neither; so only what a command does in its legal loop states counts. -/
theorem controlStep_of_whenLegal {i : Instr} {legal : BitVec 2 → Bool} {op : Byte} {act : State → State}
    {s t : State} (h : whenLegal legal op act s = .next t)
    (hact : s.loop ≠ 3#2 → legal s.loop = true → ControlStep i s (act s)) : ControlStep i s t := by
  obtain ⟨hheld, ⟨hlegal, rfl⟩ | ⟨-, rfl⟩⟩ := whenLegal_cases h
  · exact hact hheld hlegal
  · exact .of_controlOf (fail_keepsControl .badState op s)

theorem KeepsControl.whenLegal {i : Instr} {legal : BitVec 2 → Bool} {op : Byte} {act : State → State}
    {s t : State} (hact : KeepsControl act) (h : whenLegal legal op act s = .next t) : ControlStep i s t :=
  controlStep_of_whenLegal h fun _ _ => .of_controlOf (hact s)

theorem openFailed_control {c : ResultCode} (hc : codeByte c ≠ 0x00#8) (op : Byte) (s : State) :
    (openFailed c op s).agenda = s.agenda ∧ (openFailed c op s).loop = 2#2 ∧
      (openFailed c op s).fatalCode ≠ 0x00#8 := by
  rw [openFailed, fail_eq]
  exact ⟨rfl, rfl, hc⟩

/-- An open keeps the loop state, or it is refused: the shutdown with a fatal code. -/
theorem openOp_control (op : Byte) (s : State) :
    (openOp op s).agenda = s.agenda ∧
      ((openOp op s).loop = s.loop ∨ ((openOp op s).loop = 2#2 ∧ (openOp op s).fatalCode ≠ 0x00#8)) := by
  obtain ⟨-, h⟩ | ⟨-, -, h⟩ | ⟨-, -, h⟩ | ⟨-, -, h⟩ := openOp_cases op s
  · rw [h, fail_eq]; exact ⟨rfl, .inl rfl⟩
  · rw [h]; exact ⟨rfl, .inl rfl⟩
  · rw [h]
    obtain ⟨hagenda, hfatal⟩ := openFailed_control (c := .portUnavailable) (by decide) op (drawOpen s)
    exact ⟨hagenda, .inr hfatal⟩
  · rw [h]
    obtain ⟨hagenda, hfatal⟩ := openFailed_control (c := .permissionDenied) (by decide) op (drawOpen s)
    exact ⟨hagenda, .inr hfatal⟩

theorem openOp_controlStep (op : Byte) {s : State} (hl : s.loop = 0#2) : ControlStep .openPort s (openOp op s) := by
  obtain ⟨hagenda, hkept | ⟨hdown, hfatal⟩⟩ := openOp_control op s
  · exact ⟨hagenda, .inl hkept⟩
  · exact ⟨hagenda, .inr (.inr (.inl ⟨hl, hdown, hfatal, .inr rfl⟩))⟩

theorem startOp_controlStep {s : State} (hl : s.loop = 0#2) : ControlStep .start s (startOp s) := by
  obtain ⟨hagenda, hopen⟩ := openOp_control opStart s
  obtain ⟨hp, h⟩ | ⟨-, hdown, h⟩ | ⟨hp, hup, h⟩ := startOp_cases s
  · rw [h]
    exact ⟨rfl, .inr (.inl ⟨hl, rfl, rfl, hp⟩)⟩
  · rw [h]
    obtain hkept | ⟨-, hfatal⟩ := hopen
    · exact ⟨hagenda, .inl hkept⟩
    · exact ⟨hagenda, .inr (.inr (.inl ⟨hl, hdown, hfatal, .inl rfl⟩))⟩
  · rw [h]
    exact ⟨hagenda, .inr (.inl ⟨hl, rfl, rfl, State.openOp_port hp hup⟩)⟩

theorem quitOp_controlStep {s : State} (hheld : s.loop ≠ 3#2) : ControlStep .quit s (quitOp s) := by
  obtain ⟨-, h⟩ | ⟨hup, h⟩ := quitOp_cases s
  · rw [h]
    exact ⟨rfl, .inl rfl⟩
  · have hloops : ∀ l : BitVec 2, l ≠ 3#2 → l ≠ loopShutdown → l = 0#2 ∨ l = 1#2 := by decide
    rw [h]
    exact ⟨rfl, .inr (.inr (.inr ⟨hloops s.loop hheld hup, rfl, rfl⟩))⟩

/-- Each command of the host: only START, OPEN and QUIT change the loop state, and none the agenda. -/
theorem exec_hostCommand_control {i : Instr} {s t : State} (hi : State.IsHostCommand i)
    (h : exec i s = .next t) : ControlStep i s t := by
  cases i with
  | start => exact controlStep_of_whenLegal h fun _ hl => startOp_controlStep ((legalIdle_iff _).mp hl)
  | openPort => exact controlStep_of_whenLegal h fun _ hl => openOp_controlStep opOpen ((legalIdle_iff _).mp hl)
  | quit => exact controlStep_of_whenLegal h fun hheld _ => quitOp_controlStep hheld
  | nop => exact (done_keepsControl .ok).whenLegal h
  | resetReq => exact resetReqOp_keepsControl.whenLegal h
  | pollInbound => exact (pollInboundOp_keepsControl opPollInbound).whenLegal h
  | mapSym index => exact (mapAxis_keepsControl opMapSym sym index).whenLegal h
  | mapSymInv index => exact (mapAxis_keepsControl opMapSymInv symInv index).whenLegal h
  | mapHalf index => exact (mapAxis_keepsControl opMapHalf half index).whenLegal h
  | sample => exact (sampleOp_keepsControl opSample).whenLegal h
  | encode => exact (encodeOp_keepsControl opEncode).whenLegal h
  | encodeReset => exact encodeResetOp_keepsControl.whenLegal h
  | send => exact (sendOp_keepsControl opSend).whenLegal h
  | closePort => exact closeOp_keepsControl.whenLegal h
  | tick | axisMotion | buttonDown | buttonUp | hatMotion | deviceRemoved | motorFrame | resetFrame =>
    exact hi.elim

/-- The next state keeps the loop state, or the word at the head of the queue is the command that changed it. -/
def LoopKeptOrCommanded (s t : State) : Prop :=
  t.loop = s.loop ∨ ∃ w rest i, s.hcq = w :: rest ∧ decodeHostWord w = .ok i ∧ LoopChange i s t

theorem loopKept_of_controlOf {s t : State} (h : controlOf t = controlOf s) :
    t.agenda = s.agenda ∧ LoopKeptOrCommanded s t :=
  ⟨congrArg Prod.snd h, .inl (congrArg Prod.fst h)⟩

/-- SEQ leaves the agenda to the environment, and changes the loop state by a host command only. -/
theorem seqStep_control {s t : State} (h : seqStep s = .next t) :
    t.agenda = s.agenda ∧ LoopKeptOrCommanded s t := by
  obtain ⟨w, rest, hq, hs⟩ | ⟨-, -, hs⟩ | ⟨-, -, hs⟩ := seqStep_cases s
  · obtain ⟨i, hi, hw⟩ | ⟨-, hw⟩ := execWord_cases w { s with hcq := rest }
    · have hexec : exec i { s with hcq := rest } = .next t := hw.symm.trans (hs.symm.trans h)
      obtain ⟨hagenda, hloop⟩ := exec_hostCommand_control (State.decodeHostWord_isHostCommand hi) hexec
      exact ⟨hagenda, hloop.imp_right fun hchange => ⟨w, rest, i, hq, hi, hchange⟩⟩
    · cases hw.symm.trans (hs.symm.trans h)
      exact loopKept_of_controlOf (fail_keepsControl .illegalCommand (opField w) { s with hcq := rest })
  · cases hs.symm.trans h
    exact loopKept_of_controlOf (tickOp_keepsControl s)
  · cases hs.symm.trans h
    exact loopKept_of_controlOf rfl

theorem timerStep_loop (s : State) : (timerStep s).loop = s.loop := by
  unfold timerStep; split <;> rfl

theorem deviceStep_control (e : EventWord) (s : State) :
    (deviceStep e s).loop = s.loop ∧ (deviceStep e s).tickPend = s.tickPend := by
  unfold deviceStep
  repeat' split
  all_goals exact ⟨rfl, rfl⟩

theorem enqueueStep_control (w : CommandWord) (s : State) :
    (enqueueStep w s).loop = s.loop ∧ (enqueueStep w s).tickPend = s.tickPend := by
  unfold enqueueStep; split <;> exact ⟨rfl, rfl⟩

theorem lineStep_control (b : Byte) (s : State) :
    (lineStep b s).loop = s.loop ∧ (lineStep b s).tickPend = s.tickPend := by
  unfold lineStep; split <;> exact ⟨rfl, rfl⟩

theorem agentStep_loop (a : AgentStep) {s t : State} (h : agentStep a s = .next t) : LoopKeptOrCommanded s t := by
  cases a with
  | seq => exact (seqStep_control h).2
  | timer => cases h; exact .inl (timerStep_loop s)
  | device e => cases h; exact .inl (deviceStep_control e s).1
  | enqueue w => cases h; exact .inl (enqueueStep_control w s).1
  | read addr => cases h; exact .inl rfl
  | line b => cases h; exact .inl (lineStep_control b s).1

/-- The agenda entry a step uses up is no part of the transition. -/
theorem step_loop {s t : State} (h : step s = .next t) : LoopKeptOrCommanded s t := by
  obtain hs | ⟨a, rest, -, hs⟩ := step_cases s
  · exact (seqStep_control (hs.symm.trans h)).2
  · exact agentStep_loop a (s := { s with agenda := rest }) (hs.symm.trans h)

/-- Settles O55: the changes of `step_loop`, with the command in place of the instruction. -/
theorem loopTransitions : Obligations.LoopTransitions := by
  intro s t h hne
  obtain hkept | ⟨w, rest, i, hq, hw, hchange⟩ := step_loop h
  · exact absurd hkept hne
  · refine ⟨w, rest, hq, ?_⟩
    obtain ⟨hs, ht, rfl, hport⟩ | ⟨hs, ht, hfatal, rfl | rfl⟩ | ⟨hs, ht, rfl⟩ := hchange
    · exact .inl ⟨hs, ht, hw, hport⟩
    · exact .inr (.inl ⟨hs, ht, hfatal, .inl hw⟩)
    · exact .inr (.inl ⟨hs, ht, hfatal, .inr hw⟩)
    · exact .inr (.inr ⟨hs, ht, hw⟩)

/-! ### The HOST and TIMER agents -/

theorem enqueueStep_of_room {s : State} (w : CommandWord) (hroom : s.hcq.length < s.params.hcqCap) :
    enqueueStep w s = { s with hcq := s.hcq ++ [w] } := if_pos hroom

theorem step_enqueue_of_room {s : State} {w : CommandWord} {more : List AgentStep}
    (h : s.agenda = .enqueue w :: more) (hroom : s.hcq.length < s.params.hcqCap) :
    step s = .next (enqueueStep w { s with agenda := more }) :=
  Scope.step_of_agenda_cons h (decide_eq_false hroom.not_ge)

/-- The host waits: SEQ steps, and the word stays at the head of the agenda. -/
theorem step_enqueue_of_full {s : State} {w : CommandWord} {more : List AgentStep}
    (h : s.agenda = .enqueue w :: more) (hfull : s.params.hcqCap ≤ s.hcq.length) : step s = seqStep s := by
  simp [step, nextStep, h, mustWait, hfull]

/-- Settles O47: the last clause is the agenda half of `seqStep_control`. -/
theorem hostEnqueueOrWait : Obligations.HostEnqueueOrWait :=
  ⟨fun _ _ w h hroom => (step_enqueue_of_room h hroom).trans (congrArg _ (enqueueStep_of_room w hroom)),
   fun _ _ _ h hfull => step_enqueue_of_full h hfull,
   fun _ _ h => (seqStep_control h).1⟩

theorem agentEnabled_timer_iff (s : State) : agentEnabled .timer s = true ↔ s.loop = 1#2 := by
  simp [agentEnabled, loopTicking]

theorem timerStep_of_room {s : State} (hl : s.loop = 1#2) (hroom : s.tickPend.toNat < s.params.tickPendMax) :
    timerStep s = { s with tickPend := BitVec.ofNat 16 (s.tickPend.toNat + 1) } := by
  have hsucc : s.tickPend + 1#16 = BitVec.ofNat 16 (s.tickPend.toNat + 1) := by
    rw [BitVec.ofNat_add, BitVec.ofNat_toNat, BitVec.setWidth_eq]
  rw [timerStep, if_pos ⟨hl, hroom⟩, hsucc]

theorem timerStep_of_saturated {s : State} (hfull : s.params.tickPendMax ≤ s.tickPend.toNat) : timerStep s = s :=
  if_neg fun h => h.2.not_ge hfull

/-- TIMER takes its step whenever the agenda names it. -/
theorem step_timer {s : State} {more : List AgentStep} (h : s.agenda = .timer :: more) :
    step s = .next (timerStep { s with agenda := more }) :=
  Scope.step_of_agenda_cons h rfl

/-- Settles O44: `step_timer` with each of the two outcomes. -/
theorem timerStepCountsTicks : Obligations.TimerStepCountsTicks :=
  ⟨agentEnabled_timer_iff,
   fun _ _ h hl hroom => (step_timer h).trans (congrArg Host.Outcome.next (timerStep_of_room hl hroom)),
   fun _ _ h _ hfull => (step_timer h).trans (congrArg Host.Outcome.next (timerStep_of_saturated hfull))⟩

/-! ### Ticks keep coming (R240) -/

/-- After a TIMER step while TICKING a tick is due: the count is at least 1 and stays below 2^16. -/
theorem timerStep_tickPend_ne_zero {s : State} (hp : s.params.Legal) (hl : s.loop = 1#2) :
    (timerStep s).tickPend ≠ 0#16 := by
  obtain ⟨-, -, -, -, -, -, -, -, -, hmin, hmax⟩ := hp
  by_cases hroom : s.tickPend.toNat < s.params.tickPendMax
  · rw [timerStep_of_room hl hroom]
    have hfits : s.tickPend.toNat + 1 < 2 ^ 16 := by omega
    intro hzero
    have hnat := congrArg BitVec.toNat hzero
    simp only [BitVec.toNat_ofNat, Nat.mod_eq_of_lt hfits] at hnat
    omega
  · rw [timerStep_of_saturated (Nat.le_of_not_lt hroom)]
    intro hzero
    simp only [hzero, BitVec.toNat_ofNat] at hroom
    omega

/-- Only SEQ takes a due tick away. -/
theorem agentStep_keeps_tickPend_ne_zero {a : AgentStep} {s t : State} (ha : a ≠ .seq) (hp : s.params.Legal)
    (hl : s.loop = 1#2) (hs : s.tickPend ≠ 0#16) (h : agentStep a s = .next t) : t.tickPend ≠ 0#16 := by
  cases a with
  | seq => exact absurd rfl ha
  | timer => cases h; exact timerStep_tickPend_ne_zero hp hl
  | device e => cases h; rwa [(deviceStep_control e s).2]
  | enqueue w => cases h; rwa [(enqueueStep_control w s).2]
  | read addr => cases h; exact hs
  | line b => cases h; rwa [(lineStep_control b s).2]

section
variable {σ : Nat → State} {a : Nat → Option AgentStep}

theorem IsRun.enabled_and_step (hrun : IsRun σ a) {n : Nat} {x : AgentStep} (hx : a n = some x) :
    agentEnabled x (σ n) = true ∧ agentStep x (σ n) = .next (σ (n + 1)) := by
  have hn := hrun n
  rwa [hx] at hn

theorem IsRun.silent (hrun : IsRun σ a) {n : Nat} (hx : a n = none) : σ (n + 1) = σ n := by
  have hn := hrun n
  rwa [hx] at hn

theorem IsRun.params_eq (hrun : IsRun σ a) (n : Nat) : (σ n).params = (σ 0).params := by
  induction n with
  | zero => rfl
  | succ n ih =>
    cases hx : a n with
    | none => rw [IsRun.silent hrun hx, ih]
    | some x => exact (Scope.agentStep_evolves x (IsRun.enabled_and_step hrun hx).2).1.1.trans ih

/-- While TICKING with SEQ silent, a due tick stays due. -/
theorem IsRun.tickPend_ne_zero (hrun : IsRun σ a) (hp : (σ 0).params.Legal) (hl : ∀ n, (σ n).loop = 1#2)
    {k m : Nat} (hsilent : ∀ j, k ≤ j → a j ≠ some .seq) (hdue : (σ k).tickPend ≠ 0#16) (hm : k ≤ m) :
    (σ m).tickPend ≠ 0#16 := by
  induction m, hm using Nat.le_induction with
  | base => exact hdue
  | succ m hm ih =>
    cases hx : a m with
    | none => rwa [IsRun.silent hrun hx]
    | some x =>
      have hseq : x ≠ .seq := fun h => hsilent m hm (hx.trans (congrArg some h))
      exact agentStep_keeps_tickPend_ne_zero hseq (IsRun.params_eq hrun m ▸ hp) (hl m) ih
        (IsRun.enabled_and_step hrun hx).2

/-- SEQ steps again: were it silent from `n` on, the next TIMER step would leave it enabled for ever. -/
theorem exists_seqStep_of_ticking (hadm : Admissible σ a) (hp : (σ 0).params.Legal)
    (hl : ∀ n, (σ n).loop = 1#2) (n : Nat) : ∃ m, n ≤ m ∧ a m = some .seq := by
  obtain ⟨hrun, hfairSeq, hfairTimer⟩ := hadm
  by_contra hnone
  push Not at hnone
  obtain ⟨k, hnk, hk⟩ := hfairTimer n fun m _ => hl m
  have hnext : σ (k + 1) = timerStep (σ k) := by
    have htimer := (IsRun.enabled_and_step hrun hk).2
    exact (Host.Outcome.next.inj htimer).symm
  have hdue : (σ (k + 1)).tickPend ≠ 0#16 := by
    rw [hnext]
    exact timerStep_tickPend_ne_zero (IsRun.params_eq hrun k ▸ hp) (hl k)
  have hsilent : ∀ j, k + 1 ≤ j → a j ≠ some .seq := fun j hj => hnone j (by omega)
  have henabled : ∀ m, k + 1 ≤ m → agentEnabled .seq (σ m) = true := fun m hm =>
    (agentEnabled_seq_iff (σ m)).mpr (.inr ⟨hl m, IsRun.tickPend_ne_zero hrun hp hl hsilent hdue hm⟩)
  obtain ⟨m, hm, hseq⟩ := hfairSeq (k + 1) henabled
  exact hsilent m hm hseq

end

/-- Settles O60: each SEQ step of such a run is enabled by a due tick, and runs it. -/
theorem ticksKeepComing : Obligations.TicksKeepComing := by
  intro σ a hadm hp hticking n
  obtain ⟨m, hm, hseq⟩ := exists_seqStep_of_ticking hadm hp (fun k => (hticking k).1) n
  obtain ⟨hl, hq⟩ := hticking m
  obtain ⟨henabled, hstep⟩ := IsRun.enabled_and_step hadm.1 hseq
  have hdue : (σ m).tickPend ≠ 0#16 :=
    (((agentEnabled_seq_iff (σ m)).mp henabled).resolve_left fun h => h hq).2
  exact ⟨m, hm, hseq, hdue, (seqStep_of_tickDue hq hl hdue).symm.trans hstep⟩

end Sys2Proof.Proofs.Sequencer
end

section
/-! The statements of 60_exceptions.md: the codes of each command and action (R247), the records a TICK, a RESET_REQ
and a START log (R263), and that no step stops (R253).

One relation carries R247 and R263: `EndsIn codes op s t` says that the action of opcode `op`, begun in `s`, ended in
`t` with exactly one of `codes` as its result and with that code's record, if it is logged, as all it logged. Each
operation of the block is given its codes once; the two statements read off the result and the log. -/

namespace Sys2Proof.Proofs.Exceptions

open Sys2Proof.Machine

/-! ### How an action ends (R246, R251) -/

/-- What an action of opcode `op` that ends with code `c` logs (R250, R251). -/
def recordsOf (c : ResultCode) (op : Byte) : List LogRecord :=
  if isLogged c then [{ code := codeByte c, op := op }] else []

theorem length_recordsOf_le_one (c : ResultCode) (op : Byte) : (recordsOf c op).length ≤ 1 := by
  unfold recordsOf
  split <;> simp

/-- The action `op`, begun in `s`, ended in `t` with one of the codes, and logged the record of that code only. -/
def EndsIn (codes : List ResultCode) (op : Byte) (s t : State) : Prop :=
  ∃ c ∈ codes, t.result = codeByte c ∧ t.log = s.log ++ recordsOf c op

section
variable {codes : List ResultCode} {c : ResultCode} {op : Byte} {s t u : State}

theorem EndsIn.mono {codes' : List ResultCode} (hsub : codes ⊆ codes') (h : EndsIn codes op s t) :
    EndsIn codes' op s t := by
  obtain ⟨c, hc, hend⟩ := h
  exact ⟨c, hsub hc, hend⟩

/-- An action whose earlier part, from `s` to `u`, logged nothing. -/
theorem EndsIn.of_log_eq (hlog : u.log = s.log) (h : EndsIn codes op u t) : EndsIn codes op s t := by
  unfold EndsIn at h ⊢
  rwa [← hlog]

theorem EndsIn.result_mem (h : EndsIn codes op s t) : t.result ∈ codes.map codeByte := by
  obtain ⟨c, hc, hresult, -⟩ := h
  exact hresult ▸ List.mem_map_of_mem hc

theorem EndsIn.result_eq (h : EndsIn [c] op s t) : t.result = codeByte c :=
  List.mem_singleton.mp h.result_mem

theorem EndsIn.atMostOneRecord (h : EndsIn codes op s t) :
    ∃ r : List LogRecord, t.log = s.log ++ r ∧ r.length ≤ 1 := by
  obtain ⟨c, -, -, hlog⟩ := h
  exact ⟨recordsOf c op, hlog, length_recordsOf_le_one c op⟩

/-- An error at the end of an action that had logged nothing. -/
theorem fail_endsIn (hlog : t.log = s.log) (hc : c ∈ codes) : EndsIn codes op s (fail c op t) := by
  rw [fail_eq]
  exact ⟨c, hc, rfl, congrArg (· ++ recordsOf c op) hlog⟩

/-- `done` is the ending of the codes that are not logged. -/
theorem done_endsIn (hlog : t.log = s.log) (hc : c ∈ codes) (hquiet : isLogged c = false) :
    EndsIn codes op s (done c t) := by
  refine ⟨c, hc, rfl, ?_⟩
  simp [recordsOf, hquiet, done, hlog]

theorem done_ok_endsIn (hlog : t.log = s.log) (hc : .ok ∈ codes) : EndsIn codes op s (done .ok t) :=
  done_endsIn hlog hc rfl

/-- A host command in one of its loop states ends as its rule does. -/
theorem endsIn_of_whenLegal {legal : BitVec 2 → Bool} {act : State → State}
    (h : whenLegal legal op act s = .next t) (hlegal : legal s.loop = true) (hact : EndsIn codes op s (act s)) :
    EndsIn codes op s t := by
  obtain ⟨-, ⟨-, rfl⟩ | ⟨hillegal, -⟩⟩ := whenLegal_cases h
  · exact hact
  · cases hlegal.symm.trans hillegal

/-- In any loop state BadState is the only further ending of a host command. -/
theorem endsIn_badState_of_whenLegal {legal : BitVec 2 → Bool} {act : State → State}
    (h : whenLegal legal op act s = .next t) (hact : legal s.loop = true → EndsIn codes op s (act s)) :
    EndsIn (.badState :: codes) op s t := by
  obtain ⟨-, ⟨hlegal, rfl⟩ | ⟨-, rfl⟩⟩ := whenLegal_cases h
  · exact (hact hlegal).mono (List.subset_cons_self ..)
  · exact fail_endsIn rfl List.mem_cons_self

end

/-! ### The codes of each operation (R247) -/

section
variable (op : Byte) (s : State)

theorem mapAxis_endsIn (f : Bool → AxisWord → Nat) (index : Byte) :
    EndsIn [.ok, .badIndex] op s (mapAxis op f index s) := by
  obtain ⟨-, h⟩ | ⟨-, h⟩ := mapAxis_cases op f index s
  · rw [h]; exact fail_endsIn rfl (by decide)
  · rw [h]; exact done_ok_endsIn rfl (by decide)

theorem sampleOp_endsIn : EndsIn [.ok, .deviceNotFound, .deviceDisconnected] op s (sampleOp op s) := by
  have hlog : (drain s).log = s.log := Snapshot.drain_log s
  obtain ⟨-, h⟩ | ⟨-, -, h⟩ | ⟨-, -, h⟩ := sampleOp_cases op s
  · rw [h]; exact done_ok_endsIn hlog (by decide)
  · rw [h]; exact fail_endsIn hlog (by decide)
  · rw [h]; exact fail_endsIn hlog (by decide)

theorem encodeOp_endsIn : EndsIn [.ok, .nullSnapshot, .unsupportedDevice] op s (encodeOp op s) := by
  obtain ⟨-, h⟩ | ⟨-, -, h⟩ | ⟨-, -, -, h⟩ := encodeOp_cases op s
  · rw [h]; exact done_endsIn rfl (by decide) rfl
  · rw [h]; exact fail_endsIn rfl (by decide)
  · rw [h]; exact done_ok_endsIn rfl (by decide)

/-- Bytes that reach the wire are no log record. -/
theorem sent_log (c : ResultCode) (bytes : List Byte) :
    (setTxResult c (dropFrame (emitWire bytes (drawTx s)))).log = s.log := by simp

theorem sendOp_endsIn : EndsIn [.ok, .writeTimeout, .noFrame, .notOpen] op s (sendOp op s) := by
  obtain ⟨-, h⟩ | ⟨-, -, h⟩ | ⟨-, -, -, h⟩ | ⟨-, -, -, h⟩ := sendOp_cases op s
  · rw [h]; exact fail_endsIn rfl (by decide)
  · rw [h]; exact done_endsIn rfl (by decide) rfl
  · rw [h]; exact done_ok_endsIn (sent_log ..) (by decide)
  · rw [h]; exact fail_endsIn (sent_log ..) (by decide)

/-- The codes of a SEND that has a frame, by the state of the port. -/
def frameSendCodes (port : Bool) : List ResultCode := if port then [.ok, .writeTimeout] else [.notOpen]

variable {s} in
theorem sendOp_endsIn_of_frame (hf : s.flen ≠ 0#5) : EndsIn (frameSendCodes s.port) op s (sendOp op s) := by
  obtain ⟨hp, h⟩ | ⟨-, hnone, -⟩ | ⟨hp, -, -, h⟩ | ⟨hp, -, -, h⟩ := sendOp_cases op s
  · rw [h, hp]; exact fail_endsIn rfl (by decide)
  · exact absurd hnone hf
  · rw [h, hp]; exact done_ok_endsIn (sent_log ..) (by decide)
  · rw [h, hp]; exact fail_endsIn (sent_log ..) (by decide)

theorem openOp_endsIn : EndsIn [.ok, .portUnavailable, .permissionDenied, .badState] op s (openOp op s) := by
  obtain ⟨-, h⟩ | ⟨-, -, h⟩ | ⟨-, -, h⟩ | ⟨-, -, h⟩ := openOp_cases op s
  · rw [h]; exact fail_endsIn rfl (by decide)
  · rw [h]; exact done_ok_endsIn rfl (by decide)
  · rw [h]; exact fail_endsIn rfl (by decide)
  · rw [h]; exact fail_endsIn rfl (by decide)

theorem pollInboundOp_endsIn : EndsIn [.ok, .notOpen] op s (pollInboundOp op s) := by
  obtain ⟨-, h⟩ | ⟨-, h⟩ := pollInboundOp_cases op s
  · rw [h]; exact fail_endsIn rfl (by decide)
  · rw [h]; exact done_ok_endsIn rfl (by decide)

theorem quitOp_endsIn : EndsIn [.ok] opQuit s (quitOp s) := by
  obtain ⟨-, h⟩ | ⟨-, h⟩ := quitOp_cases s
  · rw [h]; exact done_ok_endsIn rfl (by decide)
  · rw [h]; exact done_ok_endsIn rfl (by decide)

/-- START opens the port only where it is closed, so the BadState of OPEN cannot arise. -/
theorem startOp_endsIn {s : State} (hl : s.loop = 0#2) :
    EndsIn [.ok, .portUnavailable, .permissionDenied] opStart s (startOp s) := by
  cases hp : s.port with
  | true => rw [Transmitter.startOp_of_open hp]; exact done_ok_endsIn rfl (by decide)
  | false =>
    obtain ⟨hopen, -⟩ | ⟨-, ha, -⟩ | ⟨-, -, h⟩ | ⟨-, -, h⟩ := openOp_cases opStart s
    · cases hp.symm.trans hopen
    · rw [Sequencer.startOp_of_ok hl hp ha]; exact done_ok_endsIn rfl (by decide)
    · rw [Sequencer.startOp_of_refused hp h]; exact fail_endsIn rfl (by decide)
    · rw [Sequencer.startOp_of_refused hp h]; exact fail_endsIn rfl (by decide)

/-- ENCODE_RESET logs nothing and leaves a frame to send. -/
theorem resetReqOp_endsIn : EndsIn (frameSendCodes s.port) opResetReq s (resetReqOp s) :=
  sendOp_endsIn_of_frame (s := encodeResetOp s) opResetReq (Sequencer.encodeResetOp_flen_ne_zero s)

/-! ### TICK: at most one of its stages fails (R263) -/

/-- After a failed ENCODE there is no SEND; after a good one there is a frame to send. -/
theorem tickStages_endsIn {s : State} (hv : s.snapValid = true) :
    EndsIn (.unsupportedDevice :: frameSendCodes s.port) opTick s (tickStages s) := by
  obtain ⟨hnull, -⟩ | ⟨-, hfew, -⟩ | ⟨-, hax, hbtn, -⟩ := encodeOp_cases opTick s
  · cases hv.symm.trans hnull
  · rw [Sequencer.tickStages_of_unsupported hv hfew]
    exact fail_endsIn rfl List.mem_cons_self
  · rw [Sequencer.tickStages_of_supported hv hax hbtn]
    have hframe : (done .ok (assembleMotor (frameOfSnapshot s) s)).flen ≠ 0#5 := by simp [done, assembleMotor]
    have hsent := sendOp_endsIn_of_frame opTick hframe
    exact (hsent.of_log_eq rfl).mono (List.subset_cons_self ..)

/-- A failed SAMPLE leaves the null snapshot, and the stages are skipped. -/
theorem tickStages_failedSample_endsIn {codes : List ResultCode} {c : ResultCode} {d : State}
    (hlog : d.log = s.log) (hc : c ∈ codes) : EndsIn codes op s (tickStages (fail c op (clearValid d))) := by
  have hnull : (fail c op (clearValid d)).snapValid = false := by rw [fail_eq]; rfl
  rw [Sequencer.tickStages_of_null hnull]
  exact fail_endsIn hlog hc

/-- The codes of a TICK, by the state of the port. -/
def tickCodes (port : Bool) : List ResultCode :=
  [.deviceNotFound, .deviceDisconnected, .unsupportedDevice] ++ frameSendCodes port

/-- The display at the end writes neither the result nor the log. -/
theorem tickOp_endsIn : EndsIn (tickCodes s.port) opTick s (tickOp s) := by
  have hlog := Sequencer.drain_takeTick_log s
  have hstages : EndsIn (tickCodes s.port) opTick s (tickStages (sampleOp opTick (takeTick s))) := by
    obtain ⟨-, h⟩ | ⟨-, -, h⟩ | ⟨-, -, h⟩ := sampleOp_cases opTick (takeTick s)
    · have hend := tickStages_endsIn (s := done .ok (capture (drain (takeTick s)))) rfl
      have hport : (done .ok (capture (drain (takeTick s)))).port = s.port := Sequencer.drain_takeTick_port s
      rw [h]
      rw [hport] at hend
      exact (hend.of_log_eq hlog).mono (List.subset_append_right [ResultCode.deviceNotFound, .deviceDisconnected] _)
    · rw [h]; exact tickStages_failedSample_endsIn opTick s hlog (by simp [tickCodes])
    · rw [h]; exact tickStages_failedSample_endsIn opTick s hlog (by simp [tickCodes])
  exact hstages

end

/-- Settles O42: a TICK ends in one code and logs the record of that code only, and so do a RESET_REQ and a START,
whether legal or refused with BadState. -/
theorem atMostOneLogRecord : Obligations.AtMostOneLogRecord := by
  rintro i s t (rfl | rfl | rfl) h
  · cases h
    exact (tickOp_endsIn s).atMostOneRecord
  · exact (endsIn_badState_of_whenLegal h fun _ => resetReqOp_endsIn s).atMostOneRecord
  · exact (endsIn_badState_of_whenLegal h fun hl => startOp_endsIn ((legalIdle_iff _).mp hl)).atMostOneRecord

/-- Settles O41, row by row of R247. While TICKING the port is open (10_state.md R43(b)), which excludes NotOpen
from RESET_REQ and TICK. -/
theorem resultCodesPerCommand : Obligations.ResultCodesPerCommand := by
  intro s t i hinv h
  have always : legalAlways s.loop = true := (legalAlways_iff _).mpr hinv.loop_held
  have idle (hl : s.loop = 0#2) : legalIdle s.loop = true := (legalIdle_iff _).mpr hl
  refine ⟨?nop, ?start, ?quit, ?resetReq, ?tick, ?pollInbound, ?map, ?sample, ?encode, ?encodeReset, ?send,
    ?openPort, ?closePort⟩
  case nop =>
    rintro rfl
    exact (endsIn_of_whenLegal h always (done_ok_endsIn rfl List.mem_cons_self)).result_eq
  case start =>
    rintro rfl hl
    exact (endsIn_of_whenLegal h (idle hl) (startOp_endsIn hl)).result_mem
  case quit =>
    rintro rfl
    exact (endsIn_of_whenLegal h always (quitOp_endsIn s)).result_eq
  case resetReq =>
    rintro rfl hl
    have hend := resetReqOp_endsIn s
    rw [hinv.ticking_open hl] at hend
    exact (endsIn_of_whenLegal h ((legalTicking_iff _).mpr hl) hend).result_mem
  case tick =>
    rintro rfl hl
    cases h
    have hend := tickOp_endsIn s
    rw [hinv.ticking_open hl] at hend
    have hsub : tickCodes true ⊆
        [.ok, .deviceNotFound, .deviceDisconnected, .unsupportedDevice, .writeTimeout] := by decide
    exact (hend.mono hsub).result_mem
  case pollInbound =>
    rintro rfl
    exact (endsIn_of_whenLegal h always (pollInboundOp_endsIn opPollInbound s)).result_mem
  case map =>
    rintro index (rfl | rfl | rfl)
    · exact (endsIn_of_whenLegal h always (mapAxis_endsIn opMapSym s sym index)).result_mem
    · exact (endsIn_of_whenLegal h always (mapAxis_endsIn opMapSymInv s symInv index)).result_mem
    · exact (endsIn_of_whenLegal h always (mapAxis_endsIn opMapHalf s half index)).result_mem
  case sample =>
    rintro rfl hl
    exact (endsIn_of_whenLegal h (idle hl) (sampleOp_endsIn opSample s)).result_mem
  case encode =>
    rintro rfl hl
    exact (endsIn_of_whenLegal h (idle hl) (encodeOp_endsIn opEncode s)).result_mem
  case encodeReset =>
    rintro rfl hl
    exact (endsIn_of_whenLegal h (idle hl) (done_ok_endsIn rfl List.mem_cons_self)).result_eq
  case send =>
    rintro rfl hl
    exact (endsIn_of_whenLegal h (idle hl) (sendOp_endsIn opSend s)).result_mem
  case openPort =>
    rintro rfl hl
    exact (endsIn_of_whenLegal h (idle hl) (openOp_endsIn opOpen s)).result_mem
  case closePort =>
    rintro rfl hl
    exact (endsIn_of_whenLegal h (idle hl) (done_ok_endsIn rfl List.mem_cons_self)).result_eq

/-! ### No step stops (R253)

Only the legality check of a host command can stop a step, at `LOOP = 3`. -/

theorem exists_next_of_whenLegal (legal : BitVec 2 → Bool) (op : Byte) (act : State → State) {s : State}
    (hheld : s.loop ≠ 3#2) : ∃ t, whenLegal legal op act s = .next t := by
  cases hl : legal s.loop with
  | true => exact ⟨act s, whenLegal_legal op act hheld hl⟩
  | false => exact ⟨fail .badState op s, whenLegal_illegal op act hheld hl⟩

theorem exists_next_of_execWord (w : CommandWord) {s : State} (hheld : s.loop ≠ 3#2) :
    ∃ t, execWord w s = .next t := by
  obtain ⟨i, hi, hw⟩ | ⟨-, hw⟩ := execWord_cases w s
  · obtain ⟨legal, act, hexec, -⟩ := Sequencer.checksLegality_of_decodes hi
    rw [hw, hexec]
    exact exists_next_of_whenLegal legal (opField w) act hheld
  · exact ⟨_, hw⟩

theorem exists_next_of_seqStep {s : State} (hheld : s.loop ≠ 3#2) : ∃ t, seqStep s = .next t := by
  obtain ⟨w, rest, -, hs⟩ | ⟨-, -, hs⟩ | ⟨-, -, hs⟩ := seqStep_cases s
  · rw [hs]; exact exists_next_of_execWord w (s := { s with hcq := rest }) hheld
  · exact ⟨tickOp s, hs⟩
  · exact ⟨s, hs⟩

theorem exists_next_of_agentStep (a : AgentStep) {s : State} (hheld : s.loop ≠ 3#2) :
    ∃ t, agentStep a s = .next t := by
  cases a with
  | seq => exact exists_next_of_seqStep hheld
  | timer => exact ⟨timerStep s, rfl⟩
  | device e => exact ⟨deviceStep e s, rfl⟩
  | enqueue w => exact ⟨enqueueStep w s, rfl⟩
  | read addr => exact ⟨readStep addr s, rfl⟩
  | line b => exact ⟨lineStep b s, rfl⟩

/-- Settles O54: the invariant excludes `LOOP = 3`. -/
theorem stepNeverStops : Obligations.StepNeverStops := by
  intro s hinv
  obtain hs | ⟨a, rest, -, hs⟩ := step_cases s
  · rw [hs]; exact exists_next_of_seqStep hinv.loop_held
  · rw [hs]; exact exists_next_of_agentStep a (s := { s with agenda := rest }) hinv.loop_held

end Sys2Proof.Proofs.Exceptions
end

section
/-! The statements of 70_reset_and_hazards.md: the state after reset (R275), the end in SHUTDOWN (R282, R295), and
what only a reset restores (R276).

The two step rules share one inversion, `StepFrom u t`: each way in which a step leads to `t`, where `u` is the state
before it with the agenda entry and the host word it takes removed. Each rule then goes through these ways once. -/

namespace Sys2Proof.Proofs.Reset

open Sys2Proof.Machine

/-! ### Reset -/

theorem deviceFound_iff (d : DeviceAtReset) : deviceFound d = true ↔ ∃ na nb nh, d = .present na nb nh := by
  cases d <;> simp [deviceFound]

/-- The capacities are at most 64, so a capped count fits its byte (10_state.md R27). -/
theorem toNat_cappedCount (n : Nat) {cap : Nat} (hcap : cap ≤ 64) :
    (BitVec.ofNat 8 (min n cap)).toNat = min n cap := by
  rw [BitVec.toNat_ofNat]
  omega

theorem resetWith_counts_of_present {p : Params} (hp : p.Legal) {na nb nh : Nat}
    (hd : p.deviceAtReset = .present na nb nh) :
    (State.resetWith p).nax.toNat = min na p.maxAx ∧ (State.resetWith p).nbtn.toNat = min nb p.maxBtn ∧
      (State.resetWith p).nhat.toNat = min nh p.maxHat := by
  obtain ⟨-, -, -, ⟨-, hax⟩, ⟨-, hbtn⟩, hhat, -⟩ := hp
  simp only [State.resetWith, hd, deviceCounts]
  exact ⟨toNat_cappedCount na hax, toNat_cappedCount nb hbtn, toNat_cappedCount nh hhat⟩

theorem resetWith_counts_of_absent {p : Params} (hd : p.deviceAtReset = .absent) :
    (State.resetWith p).nax = 0#8 ∧ (State.resetWith p).nbtn = 0#8 ∧ (State.resetWith p).nhat = 0#8 := by
  simp [State.resetWith, hd, deviceCounts]

/-- Settles O51, the parts of the table in its order. -/
theorem resetValues : Obligations.ResetValues := by
  rintro p _ hp rfl
  obtain ⟨-, -, -, htie⟩ := (State.resetWith_inv hp).config_regs
  exact ⟨⟨rfl, rfl, rfl, rfl, rfl⟩, deviceFound_iff p.deviceAtReset, ⟨rfl, rfl, rfl⟩,
    fun _ _ _ hd => resetWith_counts_of_present hp hd, resetWith_counts_of_absent, ⟨rfl, rfl, rfl, rfl⟩,
    ⟨rfl, rfl, rfl, rfl, rfl⟩, ⟨rfl, rfl, fun j => Vector.getElem_replicate j.isLt, rfl, rfl, rfl⟩,
    ⟨toNat_atWidth _, toNat_atWidth _, toNat_atWidth _, htie⟩, ⟨rfl, rfl, rfl, rfl⟩⟩

/-! ### What a step can do -/

/-- The ways from `u` to `t`: SEQ runs a command, refuses a word, runs a due tick or waits, or an agent of the
environment steps (00_scope.md R8; 45_sequencer.md R216, R218). -/
inductive StepFrom (u t : State) : Prop
  | command (i : Instr) (hi : State.IsHostCommand i) (h : exec i u = .next t)
  | refusal (op : Byte) (h : t = fail .illegalCommand op u)
  | tick (hdue : tickDue u = true) (h : t = tickOp u)
  | wait (h : t = u)
  | timer (h : t = timerStep u)
  | device (e : EventWord) (h : t = deviceStep e u)
  | enqueue (w : CommandWord) (h : t = enqueueStep w u)
  | read (addr : Byte) (h : t = readStep addr u)
  | line (b : Byte) (h : t = lineStep b u)

theorem stepFrom_of_execWord {w : CommandWord} {s t : State} (h : execWord w s = .next t) : StepFrom s t := by
  obtain ⟨i, hi, hw⟩ | ⟨-, hw⟩ := execWord_cases w s
  · exact .command i (State.decodeHostWord_isHostCommand hi) (hw.symm.trans h)
  · cases hw.symm.trans h
    exact .refusal (opField w) rfl

theorem exists_stepFrom_of_seqStep {s t : State} (h : seqStep s = .next t) :
    ∃ hcq, hcq <:+ s.hcq ∧ StepFrom { s with hcq := hcq } t := by
  obtain ⟨w, rest, hq, hs⟩ | ⟨-, hdue, hs⟩ | ⟨-, -, hs⟩ := seqStep_cases s
  · exact ⟨rest, hq ▸ List.suffix_cons w rest, stepFrom_of_execWord (hs.symm.trans h)⟩
  · cases hs.symm.trans h
    exact ⟨s.hcq, List.suffix_rfl, .tick hdue rfl⟩
  · cases hs.symm.trans h
    exact ⟨s.hcq, List.suffix_rfl, .wait rfl⟩

theorem exists_stepFrom_of_agentStep (a : AgentStep) {s t : State} (h : agentStep a s = .next t) :
    ∃ hcq, hcq <:+ s.hcq ∧ StepFrom { s with hcq := hcq } t := by
  cases a with
  | seq => exact exists_stepFrom_of_seqStep h
  | timer => cases h; exact ⟨s.hcq, List.suffix_rfl, .timer rfl⟩
  | device e => cases h; exact ⟨s.hcq, List.suffix_rfl, .device e rfl⟩
  | enqueue w => cases h; exact ⟨s.hcq, List.suffix_rfl, .enqueue w rfl⟩
  | read addr => cases h; exact ⟨s.hcq, List.suffix_rfl, .read addr rfl⟩
  | line b => cases h; exact ⟨s.hcq, List.suffix_rfl, .line b rfl⟩

theorem exists_stepFrom {s t : State} (h : step s = .next t) :
    ∃ hcq agenda, hcq <:+ s.hcq ∧ StepFrom { s with hcq := hcq, agenda := agenda } t := by
  obtain hs | ⟨a, rest, -, hs⟩ := step_cases s
  · obtain ⟨hcq, hsuffix, hstep⟩ := exists_stepFrom_of_seqStep (hs.symm.trans h)
    exact ⟨hcq, s.agenda, hsuffix, hstep⟩
  · obtain ⟨hcq, hsuffix, hstep⟩ := exists_stepFrom_of_agentStep a (hs.symm.trans h)
    exact ⟨hcq, rest, hsuffix, hstep⟩

/-! What each agent of the environment leaves unchanged. -/

theorem timerStep_frame (s : State) : timerStep s = { s with tickPend := (timerStep s).tickPend } := by
  unfold timerStep
  split <;> rfl

theorem deviceStep_frame (e : EventWord) (s : State) : deviceStep e s = { s with
    evq := (deviceStep e s).evq
    devAttached := (deviceStep e s).devAttached } := by
  unfold deviceStep
  repeat' split
  all_goals rfl

theorem enqueueStep_frame (w : CommandWord) (s : State) :
    enqueueStep w s = { s with hcq := (enqueueStep w s).hcq } := by
  unfold enqueueStep
  split <;> rfl

theorem lineStep_frame (b : Byte) (s : State) : lineStep b s = { s with rxq := (lineStep b s).rxq } := by
  unfold lineStep
  split <;> rfl

/-! ### SHUTDOWN is terminal (R282, R295) -/

/-- The two output streams that end in SHUTDOWN: the wire and the display. -/
def outputsOf (s : State) : List Byte × List DisplayRecord := (s.wire, s.disp)

theorem outputsOf_fail (c : ResultCode) (op : Byte) (s : State) : outputsOf (fail c op s) = outputsOf s := by
  rw [fail_eq]; rfl

theorem outputsOf_mapAxis (op : Byte) (f : Bool → AxisWord → Nat) (index : Byte) (s : State) :
    outputsOf (mapAxis op f index s) = outputsOf s := by
  obtain ⟨-, h⟩ | ⟨-, h⟩ := mapAxis_cases op f index s
  · rw [h, outputsOf_fail]
  · rw [h]; rfl

theorem outputsOf_pollInboundOp (op : Byte) (s : State) : outputsOf (pollInboundOp op s) = outputsOf s := by
  obtain ⟨-, h⟩ | ⟨-, h⟩ := pollInboundOp_cases op s
  · rw [h, outputsOf_fail]; rfl
  · rw [h]; rfl

theorem outputsOf_quitOp (s : State) : outputsOf (quitOp s) = outputsOf s := by
  obtain ⟨-, h⟩ | ⟨-, h⟩ := quitOp_cases s
  · rw [h]; rfl
  · rw [h]; rfl

section
variable {legal : BitVec 2 → Bool} {op : Byte} {act : State → State} {s t : State}

theorem outputsOf_of_whenLegal (h : whenLegal legal op act s = .next t)
    (hact : legal s.loop = true → outputsOf (act s) = outputsOf s) : outputsOf t = outputsOf s := by
  obtain ⟨-, ⟨hlegal, rfl⟩ | ⟨-, rfl⟩⟩ := whenLegal_cases h
  · exact hact hlegal
  · exact outputsOf_fail .badState op s

/-- A command that is not legal in SHUTDOWN is refused there. -/
theorem outputsOf_of_whenLegal_shutdown (hloop : s.loop = 2#2) (h : whenLegal legal op act s = .next t)
    (hillegal : legal 2#2 = false) : outputsOf t = outputsOf s :=
  outputsOf_of_whenLegal h fun hlegal => by
    rw [hloop, hillegal] at hlegal
    cases hlegal

end

/-- The commands legal in SHUTDOWN write neither stream, and the others are refused there. -/
theorem exec_hostCommand_outputsOf {i : Instr} {s t : State} (hi : State.IsHostCommand i) (hloop : s.loop = 2#2)
    (h : exec i s = .next t) : outputsOf t = outputsOf s := by
  cases i with
  | nop => exact outputsOf_of_whenLegal h fun _ => rfl
  | quit => exact outputsOf_of_whenLegal h fun _ => outputsOf_quitOp s
  | pollInbound => exact outputsOf_of_whenLegal h fun _ => outputsOf_pollInboundOp opPollInbound s
  | mapSym index => exact outputsOf_of_whenLegal h fun _ => outputsOf_mapAxis opMapSym sym index s
  | mapSymInv index => exact outputsOf_of_whenLegal h fun _ => outputsOf_mapAxis opMapSymInv symInv index s
  | mapHalf index => exact outputsOf_of_whenLegal h fun _ => outputsOf_mapAxis opMapHalf half index s
  | start | resetReq | sample | encode | encodeReset | send | openPort | closePort =>
    exact outputsOf_of_whenLegal_shutdown hloop h rfl
  | tick | axisMotion | buttonDown | buttonUp | hatMotion | deviceRemoved | motorFrame | resetFrame =>
    exact hi.elim

/-- No tick is due in SHUTDOWN, and the environment writes no output stream. -/
theorem StepFrom.outputsOf_eq {u t : State} (h : StepFrom u t) (hloop : u.loop = 2#2) :
    outputsOf t = outputsOf u := by
  cases h with
  | command i hi h => exact exec_hostCommand_outputsOf hi hloop h
  | refusal op h => rw [h, outputsOf_fail]
  | tick hdue =>
    obtain ⟨hticking, -⟩ := (tickDue_iff u).mp hdue
    cases hloop.symm.trans hticking
  | wait h => rw [h]
  | timer h => rw [h, timerStep_frame]; rfl
  | device e h => rw [h, deviceStep_frame]; rfl
  | enqueue w h => rw [h, enqueueStep_frame]; rfl
  | read addr h => rw [h]; rfl
  | line b h => rw [h, lineStep_frame]; rfl

/-- No transition of R243 leaves SHUTDOWN. -/
theorem step_loop_shutdown {s t : State} (hloop : s.loop = 2#2) (h : step s = .next t) : t.loop = 2#2 := by
  by_contra hleft
  obtain ⟨w, rest, -, htransition⟩ := Sequencer.loopTransitions s t h (hloop.symm ▸ hleft)
  simp [hloop] at htransition

/-- Settles O56: `step_loop_shutdown`, and the streams that no way of a step writes there. -/
theorem shutdownIsTerminal : Obligations.ShutdownIsTerminal := by
  intro s t _ hloop h
  obtain ⟨hcq, agenda, -, hstep⟩ := exists_stepFrom h
  have houtputs : outputsOf t = outputsOf s := hstep.outputsOf_eq hloop
  exact ⟨step_loop_shutdown hloop h, congrArg Prod.fst houtputs, congrArg Prod.snd houtputs⟩

/-! ### What only a reset restores (R276) -/

/-- From `s` to `t` no lost or released device comes back, and no fatal code changes once set. -/
def NothingRestored (s t : State) : Prop :=
  (s.devLost = true → t.devLost = true) ∧ (s.devPresent = false → t.devPresent = false) ∧
  (s.devAttached = false → t.devAttached = false) ∧
  (s.fatalCode ≠ 0x00#8 → t.fatalCode = s.fatalCode)

theorem NothingRestored.refl (s : State) : NothingRestored s s := ⟨id, id, id, fun _ => rfl⟩

theorem NothingRestored.trans {s t u : State} (h₁ : NothingRestored s t) (h₂ : NothingRestored t u) :
    NothingRestored s u := by
  obtain ⟨hlost₁, hpresent₁, hattached₁, hfatal₁⟩ := h₁
  obtain ⟨hlost₂, hpresent₂, hattached₂, hfatal₂⟩ := h₂
  refine ⟨hlost₂ ∘ hlost₁, hpresent₂ ∘ hpresent₁, hattached₂ ∘ hattached₁, fun hset => ?_⟩
  have hkept := hfatal₁ hset
  exact (hfatal₂ (hkept ▸ hset)).trans hkept

theorem NothingRestored.fail {s t : State} (h : NothingRestored s t) (c : ResultCode) (op : Byte) :
    NothingRestored s (fail c op t) := by
  rw [fail_eq]; exact h

theorem nothingRestored_of_whenLegal {legal : BitVec 2 → Bool} {op : Byte} {act : State → State} {s t : State}
    (h : whenLegal legal op act s = .next t) (hact : legal s.loop = true → NothingRestored s (act s)) :
    NothingRestored s t := by
  obtain ⟨-, ⟨hlegal, rfl⟩ | ⟨-, rfl⟩⟩ := whenLegal_cases h
  · exact hact hlegal
  · exact (NothingRestored.refl s).fail .badState op

/-! #### The operations that write neither the device bits nor the fatal code -/

theorem mapAxis_nothingRestored (op : Byte) (f : Bool → AxisWord → Nat) (index : Byte) (s : State) :
    NothingRestored s (mapAxis op f index s) := by
  obtain ⟨-, h⟩ | ⟨-, h⟩ := mapAxis_cases op f index s
  · rw [h]; exact (NothingRestored.refl s).fail .badIndex op
  · rw [h]; exact .refl s

theorem encodeOp_nothingRestored (op : Byte) (s : State) : NothingRestored s (encodeOp op s) := by
  obtain ⟨-, h⟩ | ⟨-, -, h⟩ | ⟨-, -, -, h⟩ := encodeOp_cases op s
  · rw [h]; exact .refl s
  · rw [h]; exact NothingRestored.fail (t := dropFrame s) (.refl s) .unsupportedDevice op
  · rw [h]; exact .refl s

theorem sendOp_nothingRestored (op : Byte) (s : State) : NothingRestored s (sendOp op s) := by
  have sent (c : ResultCode) (bytes : List Byte) :
      NothingRestored s (setTxResult c (dropFrame (emitWire bytes (drawTx s)))) := by
    simp [NothingRestored]
  obtain ⟨-, h⟩ | ⟨-, -, h⟩ | ⟨-, -, -, h⟩ | ⟨-, -, -, h⟩ := sendOp_cases op s
  · rw [h]; exact NothingRestored.fail (t := setTxResult .notOpen (dropFrame s)) (.refl s) .notOpen op
  · rw [h]; exact .refl s
  · rw [h]; exact sent .ok (bufferBytes s s.flen.toNat)
  · rw [h]; exact (sent .writeTimeout _).fail .writeTimeout op

theorem pollInboundOp_nothingRestored (op : Byte) (s : State) : NothingRestored s (pollInboundOp op s) := by
  obtain ⟨-, h⟩ | ⟨-, h⟩ := pollInboundOp_cases op s
  · rw [h]; exact NothingRestored.fail (t := emitInbound [] s) (.refl s) .notOpen op
  · rw [h]; exact .refl s

theorem resetReqOp_nothingRestored (s : State) : NothingRestored s (resetReqOp s) :=
  sendOp_nothingRestored opResetReq (encodeResetOp s)

theorem tickStages_nothingRestored (s : State) : NothingRestored s (tickStages s) := by
  have hencoded := encodeOp_nothingRestored opTick s
  simp only [tickStages]
  split
  · split
    · exact hencoded.trans (sendOp_nothingRestored opTick _)
    · exact hencoded
  · exact .refl s

/-! #### The operations that write them -/

/-- A shutdown releases the device and keeps the fatal code. -/
theorem enterShutdown_nothingRestored (s : State) : NothingRestored s (enterShutdown s) :=
  ⟨id, fun _ => rfl, id, fun _ => rfl⟩

theorem quitOp_nothingRestored (s : State) : NothingRestored s (quitOp s) := by
  obtain ⟨-, h⟩ | ⟨-, h⟩ := quitOp_cases s
  · rw [h]; exact .refl s
  · rw [h]; exact enterShutdown_nothingRestored s

section
variable {s : State}

/-- The one write of the fatal code is a first one. -/
theorem openFailed_nothingRestored (c : ResultCode) (op : Byte) (hf : s.fatalCode = 0x00#8) :
    NothingRestored s (openFailed c op s) := by
  have hset : NothingRestored s (setFatal c s) := ⟨id, id, id, absurd hf⟩
  exact (hset.trans (enterShutdown_nothingRestored _)).fail c op

theorem openOp_nothingRestored (op : Byte) (hf : s.fatalCode = 0x00#8) : NothingRestored s (openOp op s) := by
  obtain ⟨-, h⟩ | ⟨-, -, h⟩ | ⟨-, -, h⟩ | ⟨-, -, h⟩ := openOp_cases op s
  · rw [h]; exact (NothingRestored.refl s).fail .badState op
  · rw [h]; exact .refl s
  · rw [h]; exact openFailed_nothingRestored (s := drawOpen s) .portUnavailable op hf
  · rw [h]; exact openFailed_nothingRestored (s := drawOpen s) .permissionDenied op hf

theorem startOp_nothingRestored (hf : s.fatalCode = 0x00#8) : NothingRestored s (startOp s) := by
  have hopen := openOp_nothingRestored opStart hf
  obtain ⟨-, h⟩ | ⟨-, -, h⟩ | ⟨-, -, h⟩ := startOp_cases s
  · rw [h]; exact .refl s
  · rw [h]; exact hopen
  · rw [h]; exact hopen

/-- A removed device stays detached: DEVICE has no further step (42_snapshot.md R143). -/
theorem deviceStep_nothingRestored (e : EventWord) : NothingRestored s (deviceStep e s) := by
  have hdetached : s.devAttached = false → (deviceStep e s).devAttached = false := fun ha => by
    rwa [Scope.deviceStep_of_detached_or_shutdown e (.inl ha)]
  rw [deviceStep_frame]
  exact ⟨id, id, hdetached, fun _ => rfl⟩

variable (h : Inv s)
include h

/-- A fatal code is held in SHUTDOWN only (10_state.md R43(e)). -/
theorem fatalCode_of_idle (hlegal : legalIdle s.loop = true) : s.fatalCode = 0x00#8 := by
  by_contra hset
  cases (h.fatal_shutdown hset).symm.trans ((legalIdle_iff _).mp hlegal)

/-- An absent device is not found again by a record, and a present one is not lost yet (10_state.md R43(d)). -/
theorem drain_nothingRestored : NothingRestored s (drain s) := by
  cases hp : s.devPresent with
  | false => rw [Snapshot.drain_of_absent hp]; exact .refl s
  | true =>
    rw [Snapshot.drainFrame]
    refine ⟨fun hlost => ?_, fun habsent => ?_, id, fun _ => rfl⟩
    · cases hp.symm.trans (h.lost_absent hlost)
    · cases hp.symm.trans habsent

theorem sampleOp_nothingRestored (op : Byte) : NothingRestored s (sampleOp op s) := by
  have hd : NothingRestored s (clearValid (drain s)) := drain_nothingRestored h
  obtain ⟨-, hs⟩ | ⟨-, -, hs⟩ | ⟨-, -, hs⟩ := sampleOp_cases op s
  · rw [hs]; exact drain_nothingRestored h
  · rw [hs]; exact hd.fail .deviceDisconnected op
  · rw [hs]; exact hd.fail .deviceNotFound op

theorem tickOp_nothingRestored (hdue : tickDue s = true) : NothingRestored s (tickOp s) := by
  obtain ⟨-, hpending⟩ := (tickDue_iff s).mp hdue
  have hsample : NothingRestored s (sampleOp opTick (takeTick s)) :=
    sampleOp_nothingRestored (State.inv_takeTick h hpending) opTick
  exact hsample.trans (tickStages_nothingRestored _)

theorem exec_hostCommand_nothingRestored {i : Instr} {t : State} (hi : State.IsHostCommand i)
    (ht : exec i s = .next t) : NothingRestored s t := by
  cases i with
  | nop => exact nothingRestored_of_whenLegal ht fun _ => .refl s
  | start =>
    exact nothingRestored_of_whenLegal ht fun hlegal => startOp_nothingRestored (fatalCode_of_idle h hlegal)
  | quit => exact nothingRestored_of_whenLegal ht fun _ => quitOp_nothingRestored s
  | resetReq => exact nothingRestored_of_whenLegal ht fun _ => resetReqOp_nothingRestored s
  | pollInbound => exact nothingRestored_of_whenLegal ht fun _ => pollInboundOp_nothingRestored opPollInbound s
  | mapSym index => exact nothingRestored_of_whenLegal ht fun _ => mapAxis_nothingRestored opMapSym sym index s
  | mapSymInv index =>
    exact nothingRestored_of_whenLegal ht fun _ => mapAxis_nothingRestored opMapSymInv symInv index s
  | mapHalf index => exact nothingRestored_of_whenLegal ht fun _ => mapAxis_nothingRestored opMapHalf half index s
  | sample => exact nothingRestored_of_whenLegal ht fun _ => sampleOp_nothingRestored h opSample
  | encode => exact nothingRestored_of_whenLegal ht fun _ => encodeOp_nothingRestored opEncode s
  | encodeReset => exact nothingRestored_of_whenLegal ht fun _ => .refl s
  | send => exact nothingRestored_of_whenLegal ht fun _ => sendOp_nothingRestored opSend s
  | openPort =>
    exact nothingRestored_of_whenLegal ht fun hlegal =>
      openOp_nothingRestored opOpen (fatalCode_of_idle h hlegal)
  | closePort => exact nothingRestored_of_whenLegal ht fun _ => .refl s
  | tick | axisMotion | buttonDown | buttonUp | hatMotion | deviceRemoved | motorFrame | resetFrame =>
    exact hi.elim

theorem StepFrom.nothingRestored {t : State} (hstep : StepFrom s t) : NothingRestored s t := by
  cases hstep with
  | command i hi ht => exact exec_hostCommand_nothingRestored h hi ht
  | refusal op ht => rw [ht]; exact (NothingRestored.refl s).fail .illegalCommand op
  | tick hdue ht => rw [ht]; exact tickOp_nothingRestored h hdue
  | wait ht => rw [ht]; exact .refl s
  | timer ht => rw [ht, timerStep_frame]; exact .refl s
  | device e ht => rw [ht]; exact deviceStep_nothingRestored e
  | enqueue w ht => rw [ht, enqueueStep_frame]; exact .refl s
  | read addr ht => rw [ht]; exact .refl s
  | line b ht => rw [ht, lineStep_frame]; exact .refl s

/-- A shorter command queue keeps its bound, and the agenda is no part of the invariant. -/
theorem inv_of_suffix {hcq : List CommandWord} (hsuffix : hcq <:+ s.hcq) (agenda : List AgentStep) :
    Inv { s with hcq := hcq, agenda := agenda } :=
  { h with hcq_bound := hsuffix.length_le.trans h.hcq_bound }

end

/-- Settles O59: `StepFrom.nothingRestored`, from the state with the step's word and agenda entry taken. -/
theorem onlyResetRestoresTheDevice : Obligations.OnlyResetRestoresTheDevice := by
  intro s t hinv h
  obtain ⟨hcq, agenda, hsuffix, hstep⟩ := exists_stepFrom h
  exact StepFrom.nothingRestored (inv_of_suffix hinv hsuffix agenda) hstep

end Sys2Proof.Proofs.Reset
end
